-- ==== Sys2Proof/Word.lean ====
section
/-! DEFINITION. The words of the machine: bytes, opcodes, host-port indices, and what it is for a number to
fit a `W`-bit register.

The block's operand and result registers are `W` bits wide with `W` open (spec/00_scope.md R5) and hold natural
numbers (10_state.md R16, R17) on which every rule computes exactly, without wrapping (00_scope.md R8). They are
therefore `Nat` in State, and that each of them fits its register is an invariant (`Sys2Proof.Machine.BlockInv`). What the
spec treats as bits (the command word, the opcode, the fault code, the words read at CTRL and STATUS) is a `BitVec`. -/

namespace Sys2Proof

/-- A command word, and the width of CTRL, STATUS and CMD: 8 bits (R6). -/
abbrev Byte := BitVec 8

/-- An opcode, and the width of PEND: 4 bits (R6, R27, R50). -/
abbrev Opcode := BitVec 4

/-- A register index on the host port: 4 bits, so 0 to 15 and nothing else (R6, R35, R42). -/
abbrev Index := Fin 16

/-- `v` is a value of a `W`-bit register: `0 .. 2^W − 1` (R7). -/
abbrev Fits (W v : Nat) : Prop := v < 2 ^ W

end Sys2Proof
end

