-- ==== Sys2Proof/Syntax.lean ====
section
/-! DEFINITION. The five commands of the block (spec/30_encoding.md R52), one constructor per row of
spec/opcode_table.json. No command has an operand field (R51): every command takes its operands from OPA, OPB and OPC
and leaves its results in RES0, RES1, RES2 and the two sign flags. -/

namespace Sys2Proof

/-- A command (R52). -/
inductive Instr where
  /-- ISPRIME, word 0x01 (40_isprime.md R65). -/
  | isprime
  /-- GCD, word 0x02 (41_gcd.md R71). -/
  | gcd
  /-- XGCD, word 0x03 (41_gcd.md R74). -/
  | xgcd
  /-- XGCDN, word 0x04 (41_gcd.md R75). -/
  | xgcdn
  /-- MODPOW, word 0x05 (42_modpow.md R81). -/
  | modpow
deriving DecidableEq, Repr

end Sys2Proof
end

