-- ==== Sys2Proof/Decode.lean ====
section
/-! DEFINITION. Command words (spec/30_encoding.md R50 to R53, R57): the decoder, total on every byte and rejecting by
name, and after it the encoder. There is one format, CMD8: bits 7:4 are reserved and must be 0000, bits 3:0 are the
opcode. -/

namespace Sys2Proof

/-- Why a word is no command. The block answers both alike, with IllegalCommand (R53, R89). -/
inductive Illegal where
  /-- Bits 7:4 are not 0000 (R50). -/
  | reservedBits
  /-- Bits 7:4 are 0000 and the opcode is 0 or 6 to 15 (R53). -/
  | unassignedOpcode
deriving DecidableEq, Repr

/-- The field RSV, bits 7:4 (R50). -/
def rsvField (c : Byte) : BitVec 4 := c.extractLsb' 4 4

/-- The field OPCODE, bits 3:0 (R50). -/
def opcodeField (c : Byte) : Opcode := c.extractLsb' 0 4

/-- The command of an opcode (R52); PEND holds an opcode too (R27, R56). -/
def commandOf (op : Opcode) : Option Instr :=
  match op.toNat with
  | 1 => some .isprime
  | 2 => some .gcd
  | 3 => some .xgcd
  | 4 => some .xgcdn
  | 5 => some .modpow
  | _ => none

/-- The decoder (R50, R52, R53): it tests the whole word. -/
def decode (c : Byte) : Except Illegal Instr :=
  if rsvField c ≠ 0#4 then .error .reservedBits
  else match commandOf (opcodeField c) with
    | some i => .ok i
    | none => .error .unassignedOpcode

/-- The opcode of a command (R52). -/
def opcodeOf : Instr → Opcode
  | .isprime => 1#4
  | .gcd => 2#4
  | .xgcd => 3#4
  | .xgcdn => 4#4
  | .modpow => 5#4

/-- The word of a command: RSV is 0000 (R50, R52). -/
def encode (i : Instr) : Byte := 0#4 ++ opcodeOf i

/-- The command word of a value written to CMD: `v[7:0]`; the bits above are ignored (R50; 20_memory.md R40, R49). -/
def commandWord (v : Nat) : Byte := BitVec.ofNat 8 v

/-- The instruction the decoder reads from the low `nbits` bits of `w`, numbered as spec/opcode_table.json numbers
them. A command is one 8-bit word (R57), which the host writes to CMD as a number with bit 0 least significant
(00_scope.md R7). -/
def decodeTableWord (nbits w : Nat) : Option Instr :=
  (decode (commandWord (w % 2 ^ nbits))).toOption

end Sys2Proof
end

