-- ==== Sys2Proof/Config.lean ====
section
/-! DEFINITION. The configuration of the block: the one parameter the spec leaves open (spec/00_scope.md R5) and the
ones it fixes (R6). Nothing else is left open: "every reachable state and every read value is determined by the
sequence of steps taken" (93_implementation_defined.md part 2), so there is no free value. -/

namespace Sys2Proof

/-- The configuration (R5, R13): the operand width `W`, which the spec leaves open. It is no state of the block: no
step writes it. -/
structure Config where
  /-- `W`, the width in bits of OPA, OPB, OPC, RES0, RES1, RES2 and of the host port's data. -/
  width : Nat
deriving DecidableEq, Repr

/-- The least legal width (R5: `W ≥ 8`). -/
def Config.minWidth : Nat := 8

/-- The width the spec uses in its examples (R5). DESIGN CHOICE (log entry 1): the width of `State.reset`; unsafe for
a claim that rests on it. -/
def Config.exampleWidth : Nat := 64

/-- How many commands the block has (R6). -/
def Config.commandCount : Nat := 5

/-- How many fault codes the block has (R6). -/
def Config.faultCodeCount : Nat := 3

end Sys2Proof
end

