-- ==== Sys2Proof/Machine/Turn.lean ====
section
/-! DEFINITION. The steps of the machine as data (spec/00_scope.md R12): what the host may do, and a turn of the
engine. A list of turns is one order of the two agents' steps; the spec fixes no order between an enabled completion
and the host's next transaction, and every list is allowed. -/

namespace Sys2Proof.Machine

/-- One step of the total order (R12, R45). -/
inductive Turn where
  /-- The host or the platform asserts reset (70_reset_and_hazards.md R105). -/
  | reset
  /-- The host reads the register at an index (20_memory.md R39). -/
  | hostRead (i : Index)
  /-- The host writes a value to an index (20_memory.md R40). -/
  | hostWrite (i : Index) (v : Nat)
  /-- The engine may move: it completes the command in flight if there is one (30_encoding.md R56), else it has no
  step to take. -/
  | engine
deriving DecidableEq, Repr

end Sys2Proof.Machine
end

