-- ==== Sys2Proof/Machine/State.lean ====
section
/-! DEFINITION. The state of the block (spec/10_state.md R15 to R27, R30), the reasons the model stops, and reset. -/

namespace Sys2Proof.Machine

/-- CTRL, host index 0 (R19): bits 7:1 are reserved and hold nothing (they read as 0 and a write to them is ignored),
so its one field is all of it. -/
structure Ctrl where
  /-- Bit 0. -/
  strict : Bool
deriving DecidableEq, Repr

/-- STATUS, host index 1 (R20), field by field; every bit of it is a field. -/
structure Status where
  /-- Bit 0 (R21): a command is in flight. -/
  busy : Bool
  /-- Bit 1 (R22): the last accepted command has completed and no command was issued since. -/
  done : Bool
  /-- Bit 2 (R24): the last issue raised a fault. -/
  err : Bool
  /-- Bit 3 (R25): a host write was dropped because BUSY was 1. -/
  busyErr : Bool
  /-- Bit 4 (R23): the `x` of the last completed XGCD is negative. -/
  xNeg : Bool
  /-- Bit 5 (R23): the `y` of the last completed XGCD or XGCDN is negative. -/
  yNeg : Bool
  /-- Bits 7:6 (R24): the fault code, 0 when ERR is 0. -/
  ecode : BitVec 2
deriving DecidableEq, Repr

/-- The machine. The fields from `ctrl` to `pend` are the whole architectural state (R15). `cfg`, `turns` and `returned`
are the model's own: the configuration, the steps not yet taken, and what the reads returned. -/
structure State where
  /-- The parameter `W` (00_scope.md R5): configuration, not state (R13); no step writes it. Log entry 1. -/
  cfg : Config
  /-- CTRL (R19). -/
  ctrl : Ctrl
  /-- STATUS (R20). -/
  status : Status
  /-- OPA, `W` bits (R16). -/
  opa : Nat
  /-- OPB, `W` bits (R16). -/
  opb : Nat
  /-- OPC, `W` bits (R16). -/
  opc : Nat
  /-- RES0, `W` bits (R17). -/
  res0 : Nat
  /-- RES1, `W` bits (R17). -/
  res1 : Nat
  /-- RES2, `W` bits (R17). -/
  res2 : Nat
  /-- PEND, the hidden register: the opcode of the command in flight (R27). -/
  pend : Opcode
  /-- The steps not yet taken, the next one first (00_scope.md R12). Log entry 2. -/
  turns : List Turn
  /-- The values the host's reads returned, the last one first (20_memory.md R39). Log entry 3. -/
  returned : List Nat
deriving DecidableEq, Repr

/-- The model stops with a fault only in states that no run from reset reaches. The block's own faults are no stops:
they are next states (60_exceptions.md R88). -/
inductive Fault where
  /-- The engine's completion, in a state with `BUSY = 1` and PEND outside 1 to 5, for which R56 has no case (R29 item 1
  says that no such state is reachable). Safe: the model stops where the spec gives no effect. -/
  | pendNotACommand
  /-- The meaning of MODPOW, at completion in a state with `OPC = 0`, for which `mod_pow` has no value and which "the
  command never evaluates" (42_modpow.md R80, R81; unreachable by R29 item 8). Safe: the model stops where the spec gives
  no value. -/
  | modulusZeroAtCompletion
deriving DecidableEq, Repr

/-- What the model has no meaning for. -/
inductive Refusal where
  /-- An arm of `exec` that has no meaning yet. No arm is left so. Safe. -/
  | notModelled (mnemonic : String)
  /-- `step`, where the configured width is below 8: not a legal configuration (93_implementation_defined.md part 2
  item 9, treatment `refuse`). Safe. -/
  | illegalWidth
  /-- A host write of `2^W` or more, which the `W`-bit port cannot express (20_memory.md R35; 90_conflicts.md C6). Safe. -/
  | valueTooWide
deriving DecidableEq, Repr

/-- STATUS with every bit 0. -/
def Status.zero : Status :=
  { busy := false, done := false, err := false, busyErr := false, xNeg := false, yNeg := false, ecode := 0#2 }

/-- The block after reset, with a configuration: every bit of state is 0 (R30). Nothing is pending and nothing was
returned (DESIGN CHOICE, log entries 2 and 3: `turns` and `returned` are the model's own fields). -/
def State.resetWith (c : Config) : State :=
  { cfg := c, ctrl := { strict := false }, status := Status.zero, opa := 0, opb := 0, opc := 0,
    res0 := 0, res1 := 0, res2 := 0, pend := 0#4, turns := [], returned := [] }

/-- The machine right after reset (R30, R105), at the width the spec uses in its examples (DESIGN CHOICE, log entry 1). -/
def State.reset : State := State.resetWith { width := Config.exampleWidth }

end Sys2Proof.Machine
end

