-- ==== Sys2Proof/Machine/Ops.lean ====
section
/-! DEFINITION. The named operations on the registers: what an issue clears, accepting a command, raising a fault,
committing results, reset, and the host's stores. -/

namespace Sys2Proof.Machine

/-- The block's faults (spec/60_exceptions.md R87). -/
inductive Cause where
  /-- The command word is not one of 0x01 to 0x05 (R89). -/
  | illegalCommand
  /-- MODPOW with `OPC = 0` (R90). -/
  | arithmeticError
  /-- MODPOW with `STRICT = 1` and `OPA ≥ OPC` (R91). -/
  | invalidInput
deriving DecidableEq, Repr

/-- The fault code in ECODE (R87). -/
def causeCode : Cause → BitVec 2
  | .illegalCommand => 1#2
  | .arithmeticError => 2#2
  | .invalidInput => 3#2

/-- What a command writes at completion (30_encoding.md R56: `r0, r1, r2, xn, yn`). -/
structure Results where
  res0 : Nat
  res1 : Nat
  res2 : Nat
  xNeg : Bool
  yNeg : Bool
deriving DecidableEq, Repr

/-- What every issue clears first, accepted or faulted (30_encoding.md R54). -/
def State.clearForIssue (s : State) : State :=
  { s with
    res0 := 0, res1 := 0, res2 := 0
    status := { s.status with done := false, busyErr := false, xNeg := false, yNeg := false } }

/-- `raise` (60_exceptions.md R88, 00_scope.md R10): ERR and ECODE, nothing else. -/
def State.raise (f : Cause) (s : State) : State :=
  { s with status := { s.status with err := true, ecode := causeCode f } }

/-- Fault entry (60_exceptions.md R88): the clearing of every issue and the raise, in one step. BUSY and PEND stay as they
are; nothing is saved and control goes nowhere. There is no return from a fault beside it (R95): the next issue rewrites
ERR and ECODE. -/
def State.faultEntry (f : Cause) (s : State) : State := s.clearForIssue.raise f

/-- Accept (30_encoding.md R55), with the rewriting of ERR and ECODE that precedes it in R54. -/
def State.accept (op : Opcode) (s : State) : State :=
  { s with status := { s.status with err := false, ecode := 0#2, busy := true }, pend := op }

/-- The issue of a legal command (30_encoding.md R54): it faults with the given cause or is accepted. -/
def State.issue (op : Opcode) (fault? : Option Cause) (s : State) : State :=
  match fault? with
  | some f => s.faultEntry f
  | none => s.clearForIssue.accept op

/-- The commit of completion (30_encoding.md R56): results, signs, BUSY, DONE and PEND together. ERR, ECODE, BUSYERR, CTRL
and the operands are unchanged. -/
def State.commit (r : Results) (s : State) : State :=
  { s with
    res0 := r.res0, res1 := r.res1, res2 := r.res2
    status := { s.status with xNeg := r.xNeg, yNeg := r.yNeg, busy := false, done := true }
    pend := 0#4 }

/-- A dropped write changes BUSYERR and nothing else (20_memory.md R40, 60_exceptions.md R92). -/
def State.dropWrite (s : State) : State :=
  { s with status := { s.status with busyErr := true } }

/-- `OPA <- v` (20_memory.md R40). -/
def State.setOpa (v : Nat) (s : State) : State := { s with opa := v }

/-- `OPB <- v` (20_memory.md R40). -/
def State.setOpb (v : Nat) (s : State) : State := { s with opb := v }

/-- `OPC <- v` (20_memory.md R40). -/
def State.setOpc (v : Nat) (s : State) : State := { s with opc := v }

/-- `CTRL.STRICT <- v[0]`; the other bits of `v` are ignored (20_memory.md R40, R49; 10_state.md R19). -/
def State.setCtrl (v : Nat) (s : State) : State := { s with ctrl := { strict := v.testBit 0 } }

/-- What a read returned goes to the host; no register changes (20_memory.md R39). -/
def State.returnToHost (v : Nat) (s : State) : State := { s with returned := v :: s.returned }

/-- The next step is being taken: it leaves the list. -/
def State.withTurns (ts : List Turn) (s : State) : State := { s with turns := ts }

/-- The reset step (70_reset_and_hazards.md R105, R107): every bit of state to 0 in one step, a command in flight
abandoned. The configuration, the host's later steps and what it has read are no state of the block and stay. -/
def State.resetStep (s : State) : State :=
  { State.resetWith s.cfg with turns := s.turns, returned := s.returned }

end Sys2Proof.Machine
end

