-- ==== Sys2Proof/Machine/Flags.lean ====
section
/-! DEFINITION. The flags: the words read at CTRL and STATUS, and the sign-magnitude form of the Bézout coefficients. -/

namespace Sys2Proof.Machine

/-- The 8-bit value of STATUS (spec/10_state.md R20): the fields ECODE, YNEG, XNEG, BUSYERR, ERR, DONE, BUSY, in that
order from bit 7 down. -/
def statusWord (st : Status) : Byte :=
  st.ecode ++ BitVec.ofBool st.yNeg ++ BitVec.ofBool st.xNeg ++ BitVec.ofBool st.busyErr
    ++ BitVec.ofBool st.err ++ BitVec.ofBool st.done ++ BitVec.ofBool st.busy

/-- The 8-bit value of CTRL (R19): STRICT in bit 0, zeros above. -/
def ctrlWord (c : Ctrl) : Byte := 0#7 ++ BitVec.ofBool c.strict

/-- The sign flag of a coefficient (R23): 1 exactly when it is negative, so 0 for a coefficient of 0. -/
def signFlag (x : Int) : Bool := decide (x < 0)

/-- The magnitude of a coefficient (R23; 00_scope.md R9). -/
def magnitude (x : Int) : Nat := x.natAbs

/-- The integer a magnitude and a sign flag stand for (R23): `(1 − 2·NEG)·RES`. -/
def signedValue (neg : Bool) (m : Nat) : Int := (1 - 2 * (if neg then 1 else 0)) * (m : Int)

/-- Results of a command that returns one number: the registers and flags it does not use are written 0 (R31). -/
def Results.single (v : Nat) : Results := { res0 := v, res1 := 0, res2 := 0, xNeg := false, yNeg := false }

end Sys2Proof.Machine
end

