-- ==== Sys2Proof/Machine/Operands.lean ====
section
/-! DEFINITION. The registers as the host port names them (spec/20_memory.md R37, R38; 30_encoding.md R61), and what a
read of each returns. A command names no register (30_encoding.md R51): it takes `n`, `a`, `e` or `base` from OPA, `b`,
`φ` or `exponent` from OPB and `modulus` from OPC, as unsigned numbers, so a meaning reads these fields of State
directly. -/

namespace Sys2Proof.Machine

/-- A register index, decoded (R37). -/
inductive PortReg where
  | ctrl | status | cmd | opa | opb | opc | res0 | res1 | res2
  /-- Indices 3, 7 and 11 to 15 (R38). -/
  | reserved
deriving DecidableEq, Repr

/-- The index map (R37). -/
def portReg (i : Index) : PortReg :=
  match i.val with
  | 0 => .ctrl
  | 1 => .status
  | 2 => .cmd
  | 4 => .opa
  | 5 => .opb
  | 6 => .opc
  | 8 => .res0
  | 9 => .res1
  | 10 => .res2
  | _ => .reserved

/-- "Read returns" (R37): CMD and the reserved indices read 0 (R26, R38); CTRL and STATUS are zero-extended to `W` bits. -/
def readPort (r : PortReg) (s : State) : Nat :=
  match r with
  | .ctrl => (ctrlWord s.ctrl).toNat
  | .status => (statusWord s.status).toNat
  | .cmd => 0
  | .opa => s.opa
  | .opb => s.opb
  | .opc => s.opc
  | .res0 => s.res0
  | .res1 => s.res1
  | .res2 => s.res2
  | .reserved => 0

end Sys2Proof.Machine
end

