-- ==== Sys2Proof/Machine/GcdUnit.lean ====
section
/-! DEFINITION. The GCD unit (spec/41_gcd.md): `gcd`, `egcd` and the commands GCD, XGCD and XGCDN. -/

namespace Sys2Proof.Machine

/-- The loop of `gcd` (R70). The first argument bounds the passes. -/
def gcdLoop : Nat → Nat → Nat → Nat
  | 0, a, _ => a
  | k + 1, a, b => if b = 0 then a else gcdLoop k b (a % b)

/-- `gcd` (R70): `b` strictly decreases, so `b` passes are enough. -/
def euclidGcd (a b : Nat) : Nat := gcdLoop b a b

/-- The recursion of `egcd` (R72), exact integer arithmetic. The first argument bounds the nested calls: with
`k`, at most `k` of them are made (R77). -/
def egcdRec : Nat → Nat → Nat → Nat × Int × Int
  | 0, _, b => (b, 0, 1)
  | k + 1, a, b =>
    if a = 0 then (b, 0, 1)
    else
      match egcdRec k (b % a) a with
      | (g, x1, y1) => (g, y1 - (b / a : Nat) * x1, x1)

/-- `egcd` (R72): the first operand strictly decreases, so `a` nested calls are enough. -/
def egcd (a b : Nat) : Nat × Int × Int := egcdRec a a b

/-- The key-derivation step (R75): exactly one conditional addition of `φ`, no reduction. -/
def normalise (x : Int) (phi : Nat) : Int := if 0 ≤ x then x else x + phi

/-- What GCD writes (R71). -/
def gcdResults (a b : Nat) : Results := Results.single (euclidGcd a b)

/-- What XGCD writes (R74): each coefficient as magnitude and sign. -/
def xgcdResults (a b : Nat) : Results :=
  match egcd a b with
  | (g, x, y) =>
    { res0 := g, res1 := magnitude x, res2 := magnitude y, xNeg := signFlag x, yNeg := signFlag y }

/-- What XGCDN writes (R75): `d`, which is never negative (R76), and the unadjusted `y`. -/
def xgcdnResults (a b : Nat) : Results :=
  match egcd a b with
  | (g, x, y) =>
    { res0 := g, res1 := (normalise x b).toNat, res2 := magnitude y, xNeg := false, yNeg := signFlag y }

/-- GCD (R71). While idle it is issued, and raises no fault; in flight it completes. -/
def execGcd (s : State) : Host.Outcome State Fault Refusal :=
  if s.status.busy then .next (s.commit (gcdResults s.opa s.opb))
  else .next (s.issue (opcodeOf .gcd) none)

/-- XGCD (R74). While idle it is issued, and raises no fault; in flight it completes. -/
def execXgcd (s : State) : Host.Outcome State Fault Refusal :=
  if s.status.busy then .next (s.commit (xgcdResults s.opa s.opb))
  else .next (s.issue (opcodeOf .xgcd) none)

/-- XGCDN (R75). While idle it is issued, and raises no fault; in flight it completes. -/
def execXgcdn (s : State) : Host.Outcome State Fault Refusal :=
  if s.status.busy then .next (s.commit (xgcdnResults s.opa s.opb))
  else .next (s.issue (opcodeOf .xgcdn) none)

end Sys2Proof.Machine
end

