-- ==== Sys2Proof/Machine/ModExpUnit.lean ====
section
/-! DEFINITION. The modular exponentiation unit (spec/42_modpow.md): `mod_pow`, the command MODPOW, and the method R83
gives for reference. -/

namespace Sys2Proof.Machine

/-- `mod_pow` (R80), by its definition, as R83 asks of a model: `(base ^ exponent) mod modulus`, with `0 ^ 0 = 1`. It
has a value for `modulus ≥ 1` only; nothing here evaluates it at 0. -/
def modPow (base exponent modulus : Nat) : Nat := base ^ exponent % modulus

/-- One pass after another of R83's square-and-multiply: `r`, `b`, `e` are its variables, `m` the modulus, and the first
argument is how many passes it may make. -/
def squareMultiplyLoop : Nat → Nat → Nat → Nat → Nat → Nat
  | 0, r, _, _, _ => r
  | k + 1, r, b, e, m =>
    if e = 0 then r
    else squareMultiplyLoop k (if e % 2 = 1 then r * b % m else r) (b * b % m) (e / 2) m

/-- Binary square-and-multiply in at most `passes` passes (R83). No meaning calls it: a reference for whoever builds or
evaluates the unit. -/
def squareMultiply (passes base exponent modulus : Nat) : Nat :=
  squareMultiplyLoop passes (1 % modulus) (base % modulus) exponent modulus

/-- What MODPOW writes (R81). -/
def modpowResults (base exponent modulus : Nat) : Results := Results.single (modPow base exponent modulus)

/-- The faults of MODPOW, in their order (R82; 60_exceptions.md R93): the modulus first, then STRICT. -/
def modpowCause (strict : Bool) (base modulus : Nat) : Option Cause :=
  if modulus = 0 then some .arithmeticError
  else if strict = true ∧ modulus ≤ base then some .invalidInput
  else none

/-- MODPOW (R81). While idle it is issued, and faults by R82 or is accepted; in flight it completes. A completion with
`OPC = 0` has no value (R80) and is unreachable (10_state.md R29 item 8): the model stops there. -/
def execModpow (s : State) : Host.Outcome State Fault Refusal :=
  if s.status.busy then
    if s.opc = 0 then .fault .modulusZeroAtCompletion
    else .next (s.commit (modpowResults s.opa s.opb s.opc))
  else .next (s.issue (opcodeOf .modpow) (modpowCause s.ctrl.strict s.opa s.opc))

end Sys2Proof.Machine
end

