-- ==== Sys2Proof/Machine/PrimalityUnit.lean ====
section
/-! DEFINITION. The primality unit (spec/40_isprime.md): `is_prime` and the command ISPRIME. -/

namespace Sys2Proof.Machine

/-- The loop of `is_prime` (R66): tries `i` and `i + 2`, steps by 6, while `i·i ≤ n`, on exact numbers (R68). The first
argument bounds the passes; `isPrime` gives `n`, which is more than the loop needs. -/
def trialLoop : Nat → Nat → Nat → Bool
  | 0, _, _ => true
  | k + 1, n, i =>
    if n < i * i then true
    else if n % i = 0 then false
    else if n % (i + 2) = 0 then false
    else trialLoop k n (i + 6)

/-- `is_prime` (R66). -/
def isPrime (n : Nat) : Bool :=
  if n ≤ 1 then false
  else if n = 2 ∨ n = 3 then true
  else if n % 2 = 0 ∨ n % 3 = 0 then false
  else trialLoop n n 5

/-- What ISPRIME writes (R65): the boolean as the number 1 or 0. -/
def isprimeResults (n : Nat) : Results := Results.single (if isPrime n then 1 else 0)

/-- ISPRIME (R65). While idle it is issued, and raises no fault; in flight it completes. -/
def execIsprime (s : State) : Host.Outcome State Fault Refusal :=
  if s.status.busy then .next (s.commit (isprimeResults s.opa))
  else .next (s.issue (opcodeOf .isprime) none)

end Sys2Proof.Machine
end

