-- ==== Sys2Proof/Machine/Dispatch.lean ====
section
/-! DEFINITION. One arm per command. `exec i s` is the step the block takes for the command `i` in the state `s`: the
issue of `i` (spec/30_encoding.md R54) when `s` is idle, the completion of `i` (R56) when a command is in flight. -/

namespace Sys2Proof.Machine

def exec (i : Instr) (s : State) : Host.Outcome State Fault Refusal :=
  match i with
  | .isprime => Sys2Proof.Machine.execIsprime s
  | .gcd => Sys2Proof.Machine.execGcd s
  | .xgcd => Sys2Proof.Machine.execXgcd s
  | .xgcdn => Sys2Proof.Machine.execXgcdn s
  | .modpow => Sys2Proof.Machine.execModpow s

end Sys2Proof.Machine
end

