-- ==== Sys2Proof/Machine/Engine.lean ====
section
/-! DEFINITION. The engine's one step (spec/30_encoding.md R56). -/

namespace Sys2Proof.Machine

/-- `Complete()` (R56), for a busy block: PEND chooses the command, whose completion runs. With PEND outside 1 to 5 R56
has no case; the model stops there (10_state.md R29 item 1: unreachable). -/
def complete (s : State) : Host.Outcome State Fault Refusal :=
  match commandOf s.pend with
  | some i => exec i s
  | none => .fault .pendNotACommand

/-- The engine's turn: completion is enabled exactly when `BUSY = 1` (00_scope.md R12); an idle engine has no step to
take, so nothing happens. -/
def engineTurn (s : State) : Host.Outcome State Fault Refusal :=
  if s.status.busy then complete s else .next s

end Sys2Proof.Machine
end

