-- ==== Sys2Proof/Machine/HostPort.lean ====
section
/-! DEFINITION. The host port (spec/20_memory.md R35 to R40): the two host transactions. A write to CMD is where a command
word comes into the machine. -/

namespace Sys2Proof.Machine

/-- `HostRead(i)` (R39): returns the register's value and changes no register, idle or busy. -/
def hostRead (i : Index) (s : State) : State := s.returnToHost (readPort (portReg i) s)

/-- `Issue(c)` (30_encoding.md R54), for an idle block: a word that decodes runs its command's issue; any other raises
IllegalCommand (60_exceptions.md R89). -/
def issueWord (c : Byte) (s : State) : Host.Outcome State Fault Refusal :=
  match decode c with
  | .ok i => exec i s
  | .error _ => .next (s.faultEntry .illegalCommand)

/-- A write that BUSY guards (R40): dropped when a command is in flight, else performed. -/
def whenIdle (perform : Host.Outcome State Fault Refusal) (s : State) : Host.Outcome State Fault Refusal :=
  if s.status.busy then .next s.dropWrite else perform

/-- `HostWrite(i, v)` (R40, 60_exceptions.md R93): a read-only or reserved index first, then BUSY, then the register. -/
def hostWrite (i : Index) (v : Nat) (s : State) : Host.Outcome State Fault Refusal :=
  match portReg i with
  | .status => .next s
  | .res0 => .next s
  | .res1 => .next s
  | .res2 => .next s
  | .reserved => .next s
  | .opa => whenIdle (.next (s.setOpa v)) s
  | .opb => whenIdle (.next (s.setOpb v)) s
  | .opc => whenIdle (.next (s.setOpc v)) s
  | .ctrl => whenIdle (.next (s.setCtrl v)) s
  | .cmd => whenIdle (issueWord (commandWord v) s) s

end Sys2Proof.Machine
end

