-- ==== Sys2Proof/WellFormed.lean ====
section
/-! DEFINITION. What a legal configuration, command and turn are. -/

namespace Sys2Proof

/-- A legal configuration: `W ≥ 8` (spec/00_scope.md R5; 93_implementation_defined.md part 2 item 9). -/
def Config.wf (c : Config) : Bool := decide (Config.minWidth ≤ c.width)

/-- Every command is well formed: a command word has no register, immediate or mode field (30_encoding.md R50, R51),
so there is nothing to check. -/
def Instr.wf : Instr → Bool
  | .isprime => true
  | .gcd => true
  | .xgcd => true
  | .xgcdn => true
  | .modpow => true

/-- A turn the host port can express: the value of a write is below `2^W` (20_memory.md R35). The index is 4 bits wide
by its type (R42). -/
def Machine.Turn.wf (c : Config) : Machine.Turn → Bool
  | .reset => true
  | .hostRead _ => true
  | .hostWrite _ v => decide (v < 2 ^ c.width)
  | .engine => true

end Sys2Proof
end

