-- ==== Sys2Proof/Machine/Schedule.lean ====
section
/-! DEFINITION. Which step is taken next (spec/00_scope.md R12): the head of `turns`; where the host has nothing more to
do, the engine moves, so that a command in flight completes (R12's fairness, 70_reset_and_hazards.md R114, R117). -/

namespace Sys2Proof.Machine

/-- One turn. A write value the port cannot express is refused (20_memory.md R35; 90_conflicts.md C6). -/
def takeTurn (t : Turn) (s : State) : Host.Outcome State Fault Refusal :=
  match t with
  | .reset => .next s.resetStep
  | .hostRead i => .next (hostRead i s)
  | .hostWrite i v => if v < 2 ^ s.cfg.width then hostWrite i v s else .refused .valueTooWide
  | .engine => engineTurn s

/-- The next step of the total order. -/
def advance (s : State) : Host.Outcome State Fault Refusal :=
  match s.turns with
  | [] => engineTurn s
  | t :: rest => takeTurn t (s.withTurns rest)

end Sys2Proof.Machine
end

