-- ==== Sys2Proof/Machine/Step.lean ====
section
/-! DEFINITION. One step of the machine, and where a command word is placed so that the next step runs it. -/

namespace Sys2Proof.Machine

/-- One step (spec/00_scope.md R12). A width below 8 is no legal configuration and is refused
(93_implementation_defined.md part 2 item 9). -/
def step (s : State) : Host.Outcome State Fault Refusal :=
  if s.cfg.wf then advance s else .refused .illegalWidth

/-- `s` with the command word `w` as the very next thing the host writes to CMD. The block fetches nothing (10_state.md
R18): a command runs when its word is written to CMD while the block is idle, so the block is put idle (no change where
it is idle already) and the write is put at the head of `turns`. -/
def State.withFetchWord (s : State) (nbits w : Nat) : State :=
  { s with
    status := { s.status with busy := false }
    pend := 0#4
    turns := .hostWrite 2 (commandWord (w % 2 ^ nbits)).toNat :: s.turns }

end Sys2Proof.Machine
end

