-- ==== Sys2Proof/Machine/HostProgram.lean ====
section
/-! DEFINITION. Host programs (spec/30_encoding.md R59 to R64): the statements of the assembler notation, the
pseudo-instructions, and the host transactions they stand for. A host program is host software (R60): the block sees the
transactions only. -/

namespace Sys2Proof.Machine

/-- A statement of R59. A register is given by its index (R61). -/
inductive Stmt where
  /-- `WR reg, val`. -/
  | wr (reg : Index) (val : Nat)
  /-- `RD var, reg`. -/
  | rd (reg : Index)
  /-- A command mnemonic. -/
  | command (i : Instr)
  /-- `CMD val`. -/
  | cmd (val : Nat)
  /-- `WAIT`. -/
  | wait
  /-- `RESET`. -/
  | reset
deriving DecidableEq, Repr

/-- A pseudo-instruction (R62, R63, R64). -/
inductive Pseudo where
  | encrypt (m e n : Nat)
  | decrypt (c d n : Nat)
  | derived (e phi : Nat)
deriving DecidableEq, Repr

/-- The mnemonic of a command (R52, R59, R61). -/
def mnemonic : Instr → String
  | .isprime => "ISPRIME"
  | .gcd => "GCD"
  | .xgcd => "XGCD"
  | .xgcdn => "XGCDN"
  | .modpow => "MODPOW"

/-- The expansion of a pseudo-instruction (R62, R63, R64): index 4 is OPA, 5 OPB, 6 OPC. -/
def Pseudo.expand : Pseudo → List Stmt
  | .encrypt m e n => [.wr 4 m, .wr 5 e, .wr 6 n, .command .modpow, .wait]
  | .decrypt c d n => [.wr 4 c, .wr 5 d, .wr 6 n, .command .modpow, .wait]
  | .derived e phi => [.wr 4 e, .wr 5 phi, .command .xgcdn, .wait]

/-- The turns of a statement (R59). `WAIT` is one or more reads of STATUS whose last finds bit 0 at 0; how many come
before the engine's completion is not fixed (R60), and `early` says how many do: a number
for every placing of the completion in this one `WAIT` (DESIGN CHOICE, log entry 11). -/
def Stmt.turns (early : Nat) : Stmt → List Turn
  | .wr reg val => [.hostWrite reg val]
  | .rd reg => [.hostRead reg]
  | .command i => [.hostWrite 2 (encode i).toNat]
  | .cmd val => [.hostWrite 2 val]
  | .wait => List.replicate early (.hostRead 1) ++ [.engine, .hostRead 1]
  | .reset => [.reset]

/-- The turns of a list of statements. DESIGN CHOICE (log entry 11): the engine moves inside a `WAIT` only, never before a
`WR` or `RD` that stands between a command and its `WAIT`, and one `early` serves every `WAIT` of the list, where
spec/00_scope.md R12 leaves the order of completion and the next transaction open. Unsafe for a list in which a
statement stands between a command and its `WAIT`, or that has several: such a program is a list of turns of its own
(`State.turns` may hold any). Safe for the expansions of R62 to R64, which have one command and its `WAIT` at once. -/
def turnsOf (early : Nat) (p : List Stmt) : List Turn := p.flatMap (Stmt.turns early)

end Sys2Proof.Machine
end

