-- ==== Sys2Proof/Safety.lean ====
section
/-! DEFINITION. The terms claims use: the invariant of the block (spec/10_state.md R29), reachable states, when a run has
ended and when it has gone wrong (00_scope.md R14). -/

namespace Sys2Proof.Machine

/-- The invariant. `width` to `returned` say that every number fits its register or the port (00_scope.md R5, R7, R8;
20_memory.md R35); the others are R29 item by item. Item 7 speaks of the past ("some command was accepted since the last
reset"); `busyErr` is what the state alone shows of it: since the dropped write, the command in flight then is still in
flight or has completed. `NoAcceptSinceReset` states item 7 itself. -/
structure BlockInv (s : State) : Prop where
  width : 8 ≤ s.cfg.width
  opa : Fits s.cfg.width s.opa
  opb : Fits s.cfg.width s.opb
  opc : Fits s.cfg.width s.opc
  res0 : Fits s.cfg.width s.res0
  res1 : Fits s.cfg.width s.res1
  res2 : Fits s.cfg.width s.res2
  turns : ∀ t ∈ s.turns, t.wf s.cfg = true
  returned : ∀ v ∈ s.returned, Fits s.cfg.width v
  /-- R29 item 1. -/
  inFlight : s.status.busy = true →
    s.status.done = false ∧ s.status.err = false ∧ s.status.ecode = 0#2 ∧ s.status.xNeg = false ∧
    s.status.yNeg = false ∧ s.res0 = 0 ∧ s.res1 = 0 ∧ s.res2 = 0 ∧
    s.pend ∈ [1#4, 2#4, 3#4, 4#4, 5#4]
  /-- R29 item 2. -/
  idle : s.status.busy = false → s.pend = 0#4
  /-- R29 item 3. -/
  errCode : s.status.err = true ↔ s.status.ecode ≠ 0#2
  /-- R29 item 4. -/
  faulted : s.status.err = true →
    s.status.busy = false ∧ s.status.done = false ∧ s.status.xNeg = false ∧ s.status.yNeg = false ∧
    s.res0 = 0 ∧ s.res1 = 0 ∧ s.res2 = 0
  /-- R29 item 5. -/
  done : s.status.done = true → s.status.busy = false ∧ s.status.err = false
  /-- R29 item 6. -/
  xNeg : s.status.xNeg = true → s.status.done = true ∧ s.res1 ≠ 0
  /-- R29 item 6. -/
  yNeg : s.status.yNeg = true → s.status.done = true ∧ s.res2 ≠ 0
  /-- What the state shows of R29 item 7. -/
  busyErr : s.status.busyErr = true → s.status.busy = true ∨ s.status.done = true
  /-- R29 item 8. -/
  modulus : s.pend = 5#4 → s.opc ≠ 0 ∧ (s.ctrl.strict = true → s.opa < s.opc)

/-- The states that runs reach: from reset at any legal width, with any steps the host and the engine may take. -/
inductive Reachable : State → Prop where
  | reset (c : Config) (ts : List Turn) (legal : c.wf = true) (expressible : ∀ t ∈ ts, t.wf c = true) :
      Reachable { State.resetWith c with turns := ts }
  | step {s s' : State} (before : Reachable s) (taken : step s = .next s') : Reachable s'

/-- The states reached from a reset step with no command accepted since (R29 item 7): BUSY never rose. -/
inductive NoAcceptSinceReset : State → Prop where
  | reset (s : State) : NoAcceptSinceReset s.resetStep
  | step {s s' : State} (before : NoAcceptSinceReset s) (taken : step s = .next s')
      (noAccept : s'.status.busy = false) : NoAcceptSinceReset s'

/-- `k` steps in a row, as far as the first stop. -/
def runSteps : Nat → State → Host.Outcome State Fault Refusal
  | 0, s => .next s
  | k + 1, s =>
    match step s with
    | .next s' => runSteps k s'
    | .fault r => .fault r
    | .refused r => .refused r

/-- A run has ended (R14): the host has nothing more to do and the block is idle. -/
def State.ended (s : State) : Bool := s.turns.isEmpty && !s.status.busy

/-- The flags R14 names for a run that has gone wrong, where the program did not intend them. -/
def State.goneWrong (s : State) : Bool := s.status.err || s.status.busyErr

/-- A turn that writes a register or a command: a host write to CTRL, CMD, OPA, OPB or OPC (20_memory.md R40, R92). -/
def Turn.writesGuarded : Turn → Bool
  | .hostWrite i _ => decide (i.val ∈ [0, 2, 4, 5, 6])
  | .reset => false
  | .hostRead _ => false
  | .engine => false

/-- A host write to CMD (20_memory.md R37). -/
def Turn.writesCmd : Turn → Bool
  | .hostWrite i _ => decide (i.val = 2)
  | .reset => false
  | .hostRead _ => false
  | .engine => false

/-- A host transaction: a read or a write, no reset and no turn of the engine (20_memory.md R35). -/
def Turn.isTransaction : Turn → Bool
  | .hostRead _ => true
  | .hostWrite _ _ => true
  | .reset => false
  | .engine => false

end Sys2Proof.Machine
end

