-- ==== Sys2Proof/Certificates/Slice0/Obligations.lean ====
section
/-! DEFINITION. The statements for the provers, family by family. A docstring names the rule of spec/ a statement
formalises. Where a statement describes the state after a step it writes that state out in full, so that everything it
does not name is unchanged. -/

open Sys2Proof Sys2Proof.Machine

/-! ### Command words -/

/-- spec/30_encoding.md R52: the five words, and a word is a command exactly when the whole of it is that command's. -/
def Obligations.CommandWordsAreTheTable : Prop :=
  (encode .isprime = 0x01#8 ∧ encode .gcd = 0x02#8 ∧ encode .xgcd = 0x03#8 ∧ encode .xgcdn = 0x04#8 ∧
    encode .modpow = 0x05#8) ∧
  ∀ (c : Byte) (i : Instr), decode c = .ok i ↔ c = encode i

/-- A few words of the encoding, bit by bit: three commands, and three words that are none (R50, R52, R53). -/
def Obligations.SampleWordsDecode : Prop :=
  decodeTableWord 8 0b00000001 = some .isprime ∧ decodeTableWord 8 0b00000011 = some .xgcd ∧
  decodeTableWord 8 0b00000101 = some .modpow ∧ decodeTableWord 8 0b00000000 = none ∧
  decodeTableWord 8 0b00000110 = none ∧ decodeTableWord 8 0b00010101 = none

/-- R53 and 60_exceptions.md R89: 251 words are illegal, namely those with a reserved bit set or with an opcode outside 1
to 5, and issuing one raises IllegalCommand, whatever the registers hold, and starts nothing. -/
def Obligations.IllegalWordsRaiseIllegalCommand : Prop :=
  (List.range 256).countP (fun n => (decode (BitVec.ofNat 8 n)).toOption.isNone) = 251 ∧
  (∀ c : Byte, (decode c).toOption = none ↔ c.extractLsb' 4 4 ≠ 0#4 ∨ (c.extractLsb' 0 4).toNat ∉ [1, 2, 3, 4, 5]) ∧
  ∀ (s : State) (v : Nat) (rest : List Turn),
    s.cfg.wf = true → s.turns = .hostWrite 2 v :: rest → v < 2 ^ s.cfg.width → s.status.busy = false →
    v % 256 ∉ [1, 2, 3, 4, 5] →
    step s = .next { s with
      turns := rest, res0 := 0, res1 := 0, res2 := 0
      status := { busy := false, done := false, err := true, busyErr := false, xNeg := false, yNeg := false,
                  ecode := 1#2 } }

/-- A step runs the decoded command. A command's word written to CMD while the block is idle runs `exec` of it, which
issues it (R52, R54); the engine's turn while the block is busy runs `exec` of the command PEND names, which completes
it (R56). The step around `exec` takes the turn off the list. That the engine moves at once on an empty list of turns is
the model's choice, not R56's (log entry 2). -/
def Obligations.StepRunsTheDecodedCommand : Prop :=
  (∀ (s : State) (v : Nat) (rest : List Turn) (i : Instr),
    s.cfg.wf = true → s.turns = .hostWrite 2 v :: rest → v < 2 ^ s.cfg.width → s.status.busy = false →
    decode (commandWord v) = .ok i → step s = exec i { s with turns := rest }) ∧
  (∀ (s : State) (rest : List Turn) (i : Instr),
    s.cfg.wf = true → (s.turns = .engine :: rest ∨ (s.turns = [] ∧ rest = [])) → s.status.busy = true →
    commandOf s.pend = some i → step s = exec i { s with turns := rest })

/-- The word `withFetchWord` places is what the very next step runs, at every legal width and from every state. The whole
statement is about the model's own device (log entry 5): the block fetches nothing (10_state.md R18), and the hardware
cannot be made idle as `withFetchWord` makes a busy state. The step it leads to is the issue of 30_encoding.md R54. -/
def Obligations.PlacedWordRunsNext : Prop :=
  ∀ (s : State) (i : Instr), s.cfg.wf = true →
    step (s.withFetchWord 8 (encode i).toNat) =
      exec i { s with status := { s.status with busy := false }, pend := 0#4 }

/-! ### The functions of the three units -/

/-- 40_isprime.md R66, the source's contract: false for `n ≤ 1`; true for 2 and 3; false if divisible by 2 or 3;
otherwise the divisors tried are the `d ≥ 5` that are 5 or 1 modulo 6 (90_conflicts.md C1), up to `⌊√n⌋`. -/
def Obligations.TrialDivisionContract : Prop :=
  (∀ n, n ≤ 1 → isPrime n = false) ∧ isPrime 2 = true ∧ isPrime 3 = true ∧
  (∀ n, 3 < n → (n % 2 = 0 ∨ n % 3 = 0) → isPrime n = false) ∧
  (∀ n, 3 < n → n % 2 ≠ 0 → n % 3 ≠ 0 →
    (isPrime n = true ↔ ∀ d, 5 ≤ d → (d % 6 = 5 ∨ d % 6 = 1) → d * d ≤ n → ¬ d ∣ n))

/-- R67: `is_prime(n)` is true exactly when `n` is a prime number. -/
def Obligations.IsPrimeIsPrimality : Prop := ∀ n : Nat, isPrime n = true ↔ Nat.Prime n

/-- 41_gcd.md R70: the loop's equation, what the result is, and the consequences the rule lists. -/
def Obligations.GcdIsGreatestCommonDivisor : Prop :=
  (∀ a b, euclidGcd a b = if b = 0 then a else euclidGcd b (a % b)) ∧
  (∀ a b, euclidGcd a b ∣ a ∧ euclidGcd a b ∣ b ∧ ∀ d, d ∣ a → d ∣ b → d ∣ euclidGcd a b) ∧
  (∀ a b, ¬ (a = 0 ∧ b = 0) → ∀ d, d ∣ a → d ∣ b → d ≤ euclidGcd a b) ∧
  (∀ a, euclidGcd a 0 = a) ∧ (∀ b, euclidGcd 0 b = b) ∧ (∀ a b, euclidGcd a b = euclidGcd b a) ∧ (∀ a b, euclidGcd a b ≤ max a b)

/-- R72: the source's equation, and the base case and the recursive step that choose which Bézout pair is returned. -/
def Obligations.EgcdFollowsItsRecursion : Prop :=
  (∀ b, egcd 0 b = (b, 0, 1)) ∧
  (∀ a b g x1 y1, 0 < a → egcd (b % a) a = (g, x1, y1) → egcd a b = (g, y1 - ((b / a : Nat) : Int) * x1, x1)) ∧
  (∀ a b g x y, egcd a b = (g, x, y) → (a : Int) * x + (b : Int) * y = (g : Int) ∧ g = euclidGcd a b)

/-- R73, items 1 to 4: the equation, the special cases, the bounds, and that the two coefficients are not exchanged when
the operands are. -/
def Obligations.EgcdProperties : Prop :=
  (∀ a b g x y, egcd a b = (g, x, y) → g = euclidGcd a b ∧ (a : Int) * x + (b : Int) * y = (g : Int)) ∧
  (∀ b, egcd 0 b = (b, 0, 1)) ∧
  (∀ a, 0 < a → egcd a 0 = (a, 1, 0)) ∧
  (∀ a b, 0 < a → a ∣ b → egcd a b = (a, 1, 0)) ∧
  (∀ a b, 0 < b → b < a → b ∣ a → egcd a b = (b, 0, 1)) ∧
  (∀ a b g x y, egcd a b = (g, x, y) → 0 < a → x.natAbs ≤ max 1 (b / g) ∧ y.natAbs ≤ a / g) ∧
  (∀ W a b g x y, 8 ≤ W → a < 2 ^ W → b < 2 ^ W → egcd a b = (g, x, y) → x.natAbs < 2 ^ W ∧ y.natAbs < 2 ^ W) ∧
  egcd 12 18 = (6, -1, 1) ∧ egcd 18 12 = (6, 1, -1)

/-- R77: the recursion makes at most `2·W + 2` nested calls on `W`-bit operands: cut off after that many, or after any
greater number, it has reached its base case and gives the triple of R72. -/
def Obligations.EgcdNestedCallsBounded : Prop :=
  ∀ W k a b : Nat, a < 2 ^ W → b < 2 ^ W → 2 * W + 2 ≤ k → egcdRec k a b = egcd a b

/-- R76, items 1 to 4: the range of the normalised coefficient `d` of XGCDN (the value RES1 gets, R75), that `[0, φ)` fails
in the two degenerate cases only and what `d` is there, and that it is the inverse of the first operand where there is
one. -/
def Obligations.XgcdnCoefficientRange : Prop :=
  ∀ a b g : Nat, ∀ x y : Int, egcd a b = (g, x, y) →
    0 ≤ normalise x b ∧
    (∀ W, 8 ≤ W → a < 2 ^ W → b < 2 ^ W → (normalise x b).toNat < 2 ^ W) ∧
    (0 ≤ x → normalise x b = x ∧ x ≤ max 1 b) ∧
    (x < 0 → 0 < a ∧ 1 ≤ b ∧ -(b : Int) ≤ x ∧ normalise x b < b) ∧
    (2 ≤ b → normalise x b < b) ∧
    (b = 1 → a ≠ 1 → normalise x b < b) ∧
    (b = 0 → 0 < a → normalise x b = 1) ∧ (b = 0 → a = 0 → normalise x b = 0) ∧
    (a = 1 → b = 1 → normalise x b = 1) ∧
    (g = 1 → 2 ≤ b → a * (normalise x b).toNat % b = 1)

/-- 42_modpow.md R80: the definition and the consequences the rule lists; the modulus-1 case wins over the exponent-0 case
(90_conflicts.md C3). -/
def Obligations.ModPowConsequences : Prop :=
  (∀ b e m, 1 ≤ m → modPow b e m = b ^ e % m ∧ modPow b e m < m) ∧
  (∀ b m, 1 < m → modPow b 0 m = 1) ∧ (∀ b e, modPow b e 1 = 0) ∧
  (∀ e m, 1 ≤ e → 1 ≤ m → modPow 0 e m = 0) ∧
  (∀ b e m, 1 ≤ m → modPow b e m = modPow (b % m) e m)

/-- R83: square-and-multiply gives exactly the defined value, in at most `W` passes for a `W`-bit exponent. -/
def Obligations.SquareMultiplyComputesModPow : Prop :=
  ∀ W base exponent modulus : Nat, 1 ≤ modulus → exponent < 2 ^ W →
    squareMultiply W base exponent modulus = modPow base exponent modulus

/-! ### The five commands: each is issued from every idle state, and completes -/

/-- 40_isprime.md R65, with its corner cases. -/
def Obligations.IsprimeIssuesAndCompletes : Prop :=
  encode .isprime = 0x01#8 ∧
  ((∀ n ∈ [2, 3, 5, 7, 251], isPrime n = true) ∧ (∀ n ∈ [0, 1, 4, 25, 49, 121], isPrime n = false)) ∧
  (∀ s : State, s.status.busy = false → exec .isprime s = .next { s with
    res0 := 0, res1 := 0, res2 := 0, pend := 1#4
    status := { busy := true, done := false, err := false, busyErr := false, xNeg := false, yNeg := false,
                ecode := 0#2 } }) ∧
  (∀ s : State, s.status.busy = true → exec .isprime s = .next { s with
    res0 := if isPrime s.opa then 1 else 0, res1 := 0, res2 := 0, pend := 0#4
    status := { s.status with xNeg := false, yNeg := false, busy := false, done := true } })

/-- 41_gcd.md R71, with its corner cases. -/
def Obligations.GcdIssuesAndCompletes : Prop :=
  encode .gcd = 0x02#8 ∧
  (euclidGcd 0 0 = 0 ∧ (∀ a, euclidGcd a 0 = a) ∧ (∀ b, euclidGcd 0 b = b) ∧ (∀ a, euclidGcd a a = a) ∧
    (∀ a b, euclidGcd a b = euclidGcd b a) ∧ euclidGcd 7 60000 = 1) ∧
  (∀ s : State, s.status.busy = false → exec .gcd s = .next { s with
    res0 := 0, res1 := 0, res2 := 0, pend := 2#4
    status := { busy := true, done := false, err := false, busyErr := false, xNeg := false, yNeg := false,
                ecode := 0#2 } }) ∧
  (∀ s : State, s.status.busy = true → exec .gcd s = .next { s with
    res0 := euclidGcd s.opa s.opb, res1 := 0, res2 := 0, pend := 0#4
    status := { s.status with xNeg := false, yNeg := false, busy := false, done := true } })

/-- R74, with its corner cases, that the values fit, and that the two coefficients are never both negative. -/
def Obligations.XgcdIssuesAndCompletes : Prop :=
  encode .xgcd = 0x03#8 ∧
  (egcd 0 0 = (0, 0, 1) ∧ (∀ b, egcd 0 b = (b, 0, 1)) ∧ (∀ a, 0 < a → egcd a 0 = (a, 1, 0)) ∧
    (∀ a, 0 < a → egcd a a = (a, 1, 0)) ∧ egcd 7 60000 = (1, 17143, -2)) ∧
  (∀ a b g x y, egcd a b = (g, x, y) →
    ((a : Int) * signedValue (decide (x < 0)) x.natAbs + (b : Int) * signedValue (decide (y < 0)) y.natAbs = (g : Int)) ∧
    ¬ (x < 0 ∧ y < 0) ∧
    ∀ W, 8 ≤ W → a < 2 ^ W → b < 2 ^ W → g < 2 ^ W ∧ x.natAbs < 2 ^ W ∧ y.natAbs < 2 ^ W) ∧
  (∀ s : State, s.status.busy = false → exec .xgcd s = .next { s with
    res0 := 0, res1 := 0, res2 := 0, pend := 3#4
    status := { busy := true, done := false, err := false, busyErr := false, xNeg := false, yNeg := false,
                ecode := 0#2 } }) ∧
  (∀ (s : State) (g : Nat) (x y : Int), s.status.busy = true → egcd s.opa s.opb = (g, x, y) →
    exec .xgcd s = .next { s with
      res0 := g, res1 := x.natAbs, res2 := y.natAbs, pend := 0#4
      status := { s.status with xNeg := decide (x < 0), yNeg := decide (y < 0), busy := false, done := true } })

/-- R75: exactly one conditional addition, `y` not adjusted; and its worked examples. -/
def Obligations.XgcdnIssuesAndCompletes : Prop :=
  encode .xgcdn = 0x04#8 ∧
  (egcd 7 60000 = (1, 17143, -2) ∧ normalise 17143 60000 = 17143 ∧ 7 * 17143 % 60000 = 1 ∧
    egcd 60000 7 = (1, -2, 17143) ∧ normalise (-2) 7 = 5 ∧ 60000 * 5 % 7 = 1) ∧
  (∀ a b g x y, egcd a b = (g, x, y) →
    (x < 0 → (a : Int) * normalise x b + (b : Int) * y = (g : Int) + (a : Int) * (b : Int)) ∧
    0 ≤ normalise x b ∧ ∀ W, 8 ≤ W → a < 2 ^ W → b < 2 ^ W → (normalise x b).toNat < 2 ^ W) ∧
  (∀ s : State, s.status.busy = false → exec .xgcdn s = .next { s with
    res0 := 0, res1 := 0, res2 := 0, pend := 4#4
    status := { busy := true, done := false, err := false, busyErr := false, xNeg := false, yNeg := false,
                ecode := 0#2 } }) ∧
  (∀ (s : State) (g : Nat) (x y : Int), s.status.busy = true → egcd s.opa s.opb = (g, x, y) →
    ∃ d : Nat, (d : Int) = (if 0 ≤ x then x else x + s.opb) ∧
      exec .xgcdn s = .next { s with
        res0 := g, res1 := d, res2 := y.natAbs, pend := 0#4
        status := { s.status with xNeg := false, yNeg := decide (y < 0), busy := false, done := true } })

/-- 42_modpow.md R81: faulted where R82 names a fault, else accepted, and completed where the modulus is not 0, which the issue
guarantees (10_state.md R29 item 8); with the rule's corner cases. -/
def Obligations.ModpowIssuesAndCompletes : Prop :=
  encode .modpow = 0x05#8 ∧
  ((∀ a m, 2 ≤ m → modPow a 0 m = 1) ∧ (∀ a e, modPow a e 1 = 0) ∧ (∀ e m, 1 ≤ e → 1 ≤ m → modPow 0 e m = 0) ∧
    (∀ a m, modPow a 1 m = a % m) ∧ (∀ W, 8 ≤ W → modPow (2 ^ W - 1) (2 ^ W - 1) (2 ^ W - 1) = 0) ∧
    modPow 42 7 60491 = 26454) ∧
  (∀ s : State, s.status.busy = false → s.opc ≠ 0 → (s.ctrl.strict = true → s.opa < s.opc) →
    exec .modpow s = .next { s with
      res0 := 0, res1 := 0, res2 := 0, pend := 5#4
      status := { busy := true, done := false, err := false, busyErr := false, xNeg := false, yNeg := false,
                  ecode := 0#2 } }) ∧
  (∀ s : State, s.status.busy = false → (s.opc = 0 ∨ s.ctrl.strict = true ∧ s.opc ≤ s.opa) →
    ∃ t, exec .modpow s = .next t ∧ t.status.err = true ∧ t.status.busy = false ∧
      t.status.ecode = if s.opc = 0 then 2#2 else 3#2) ∧
  (∀ s : State, s.status.busy = true → s.opc ≠ 0 → exec .modpow s = .next { s with
    res0 := s.opa ^ s.opb % s.opc, res1 := 0, res2 := 0, pend := 0#4
    status := { s.status with xNeg := false, yNeg := false, busy := false, done := true } })

/-- R82: the two faults of MODPOW, in their order, whatever OPB holds, and no other: with `STRICT = 0` the second test is
not made, and with `STRICT = 1` a base below the modulus passes it. -/
def Obligations.ModpowFaultsInOrder : Prop :=
  ∀ s : State, s.status.busy = false →
    (s.opc = 0 → exec .modpow s = .next { s with
      res0 := 0, res1 := 0, res2 := 0
      status := { busy := false, done := false, err := true, busyErr := false, xNeg := false, yNeg := false,
                  ecode := 2#2 } }) ∧
    (1 ≤ s.opc → s.ctrl.strict = true → s.opc ≤ s.opa → exec .modpow s = .next { s with
      res0 := 0, res1 := 0, res2 := 0
      status := { busy := false, done := false, err := true, busyErr := false, xNeg := false, yNeg := false,
                  ecode := 3#2 } }) ∧
    (1 ≤ s.opc → s.ctrl.strict = true → s.opa < s.opc → exec .modpow s = .next { s with
      res0 := 0, res1 := 0, res2 := 0, pend := 5#4
      status := { busy := true, done := false, err := false, busyErr := false, xNeg := false, yNeg := false,
                  ecode := 0#2 } }) ∧
    (1 ≤ s.opc → s.ctrl.strict = false → exec .modpow s = .next { s with
      res0 := 0, res1 := 0, res2 := 0, pend := 5#4
      status := { busy := true, done := false, err := false, busyErr := false, xNeg := false, yNeg := false,
                  ecode := 0#2 } })

/-- R85: with `STRICT = 0` a base that is not below the modulus is accepted and reduced, and two bases that differ by a
multiple of the modulus give the same result. -/
def Obligations.OversizedBaseIsReduced : Prop :=
  ∀ (s : State) (k : Nat), s.status.busy = false → s.ctrl.strict = false → 1 ≤ s.opc → s.opc ≤ s.opa →
    ∃ t u t' u', exec .modpow s = .next t ∧ exec .modpow t = .next u ∧
      u.res0 = s.opa ^ s.opb % s.opc ∧ u.res0 = (s.opa % s.opc) ^ s.opb % s.opc ∧
      exec .modpow { s with opa := s.opa + k * s.opc } = .next t' ∧ exec .modpow t' = .next u' ∧ u'.res0 = u.res0

/-- 10_state.md R23 and 41_gcd.md R74: what the host recovers from the registers and sign flags after XGCD satisfies the
Bézout equation, the two coefficients are never both negative, and a coefficient of 0 has flag 0. -/
def Obligations.XgcdRegistersSatisfyBezout : Prop :=
  ∀ s : State, s.status.busy = true → ∃ t, exec .xgcd s = .next t ∧
    (s.opa : Int) * signedValue t.status.xNeg t.res1 + (s.opb : Int) * signedValue t.status.yNeg t.res2 = (t.res0 : Int) ∧
    t.res0 = euclidGcd s.opa s.opb ∧ ¬ (t.status.xNeg = true ∧ t.status.yNeg = true) ∧
    (t.res1 = 0 → t.status.xNeg = false) ∧ (t.res2 = 0 → t.status.yNeg = false)

/-- R76 item 4 at the registers: where the operands are coprime and OPB is 2 or more, XGCDN leaves in RES1 the inverse of
OPA modulo OPB, below OPB. -/
def Obligations.XgcdnYieldsTheInverse : Prop :=
  ∀ s : State, s.status.busy = true → euclidGcd s.opa s.opb = 1 → 2 ≤ s.opb → ∃ t, exec .xgcdn s = .next t ∧
    t.res0 = 1 ∧ t.res1 < s.opb ∧ s.opa * t.res1 % s.opb = 1 ∧ t.status.xNeg = false

/-- The frame of every command, issue and completion alike: CTRL, the operands, the configuration and what the host has
are unchanged; at issue the results and DONE, BUSYERR, XNEG, YNEG are 0, and PEND changes only with an accept; at
completion ERR, ECODE and BUSYERR are unchanged (30_encoding.md R54, R56; 70_reset_and_hazards.md R113). -/
def Obligations.CommandsLeaveTheRestUnchanged : Prop :=
  ∀ (i : Instr) (s t : State), exec i s = .next t →
    (t.cfg = s.cfg ∧ t.ctrl = s.ctrl ∧ t.opa = s.opa ∧ t.opb = s.opb ∧ t.opc = s.opc ∧ t.turns = s.turns ∧
      t.returned = s.returned) ∧
    (s.status.busy = false →
      t.res0 = 0 ∧ t.res1 = 0 ∧ t.res2 = 0 ∧ t.status.done = false ∧ t.status.busyErr = false ∧
      t.status.xNeg = false ∧ t.status.yNeg = false ∧
      ((t.status.err = false ∧ t.status.ecode = 0#2 ∧ t.status.busy = true ∧ t.pend = opcodeOf i) ∨
        (t.status.err = true ∧ t.status.ecode ≠ 0#2 ∧ t.status.busy = false ∧ t.pend = s.pend))) ∧
    (s.status.busy = true →
      t.status.err = s.status.err ∧ t.status.ecode = s.status.ecode ∧ t.status.busyErr = s.status.busyErr ∧
      t.status.busy = false ∧ t.status.done = true ∧ t.pend = 0#4)

/-- 10_state.md R31: a register not listed as read is ignored, whatever it holds. -/
def Obligations.UnreadRegistersAreIgnored : Prop :=
  ∀ (i : Instr) (s u : State), s.status.busy = true → u.status.busy = true →
    s.opa = u.opa → (i ≠ .isprime → s.opb = u.opb) → (i = .modpow → s.opc = u.opc ∧ s.opc ≠ 0) →
    ∃ s' u', exec i s = .next s' ∧ exec i u = .next u' ∧ s'.res0 = u'.res0 ∧ s'.res1 = u'.res1 ∧ s'.res2 = u'.res2 ∧
      s'.status.xNeg = u'.status.xNeg ∧ s'.status.yNeg = u'.status.yNeg

/-! ### Issue and completion as steps of the machine -/

/-- R54 and R55: `Issue(c)` with `c = v[7:0]`, its three tests in their order, and the accept. -/
def Obligations.IssueProcedure : Prop :=
  ∀ (s : State) (v : Nat) (rest : List Turn),
    s.cfg.wf = true → s.turns = .hostWrite 2 v :: rest → v < 2 ^ s.cfg.width → s.status.busy = false →
    let c := v % 256
    let faulted : BitVec 2 → State := fun code => { s with
      turns := rest, res0 := 0, res1 := 0, res2 := 0
      status := { busy := false, done := false, err := true, busyErr := false, xNeg := false, yNeg := false,
                  ecode := code } }
    step s = .next (
      if c / 16 ≠ 0 ∨ c % 16 ∉ [1, 2, 3, 4, 5] then faulted 1#2
      else if c % 16 = 5 ∧ s.opc = 0 then faulted 2#2
      else if c % 16 = 5 ∧ s.ctrl.strict = true ∧ s.opc ≤ s.opa then faulted 3#2
      else { s with
        turns := rest, res0 := 0, res1 := 0, res2 := 0, pend := BitVec.ofNat 4 (c % 16)
        status := { busy := true, done := false, err := false, busyErr := false, xNeg := false, yNeg := false,
                    ecode := 0#2 } })

/-- R56: completion, by cases on PEND, in the states in which the spec gives it (`OPC ≥ 1` for MODPOW, 10_state.md R29
item 8); it is enabled exactly when `BUSY = 1`: an idle engine changes no register (its turn passes, log entry 9). -/
def Obligations.CompletionProcedure : Prop :=
  ∀ (s : State) (rest : List Turn), s.cfg.wf = true → s.turns = .engine :: rest →
    let completed : Nat → Nat → Nat → Bool → Bool → State := fun r0 r1 r2 xn yn => { s with
      turns := rest, res0 := r0, res1 := r1, res2 := r2, pend := 0#4
      status := { s.status with xNeg := xn, yNeg := yn, busy := false, done := true } }
    (s.status.busy = false → step s = .next { s with turns := rest }) ∧
    (s.status.busy = true →
      (s.pend = 1#4 → step s = .next (completed (if isPrime s.opa then 1 else 0) 0 0 false false)) ∧
      (s.pend = 2#4 → step s = .next (completed (euclidGcd s.opa s.opb) 0 0 false false)) ∧
      (∀ g x y, s.pend = 3#4 → egcd s.opa s.opb = (g, x, y) →
        step s = .next (completed g x.natAbs y.natAbs (decide (x < 0)) (decide (y < 0)))) ∧
      (∀ g x y, s.pend = 4#4 → egcd s.opa s.opb = (g, x, y) →
        step s = .next (completed g (if 0 ≤ x then x else x + s.opb).toNat y.natAbs false (decide (y < 0)))) ∧
      (s.pend = 5#4 → s.opc ≠ 0 → step s = .next (completed (s.opa ^ s.opb % s.opc) 0 0 false false)))

/-- The model's choice (log entry 2) for 00_scope.md R12's fairness and 70_reset_and_hazards.md R114: where the host has
nothing more to do, the engine moves, and where it is idle too, nothing changes any more. -/
def Obligations.EngineMovesWhenTheHostIsDone : Prop :=
  ∀ s : State, s.turns = [] → step s = step { s with turns := [.engine] } ∧
    (s.cfg.wf = true → s.status.busy = false → step s = .next s)

/-! ### The host port -/

/-- 20_memory.md R40: `HostWrite(i, v)`, its cases in their order. -/
def Obligations.HostWriteProcedure : Prop :=
  ∀ (s : State) (i : Index) (v : Nat) (rest : List Turn),
    s.cfg.wf = true → s.turns = .hostWrite i v :: rest → v < 2 ^ s.cfg.width →
    (i.val ∈ [1, 3, 7, 8, 9, 10, 11, 12, 13, 14, 15] → step s = .next { s with turns := rest }) ∧
    (i.val ∈ [0, 2, 4, 5, 6] → s.status.busy = true →
      step s = .next { s with turns := rest, status := { s.status with busyErr := true } }) ∧
    (s.status.busy = false →
      (i = 4 → step s = .next { s with turns := rest, opa := v }) ∧
      (i = 5 → step s = .next { s with turns := rest, opb := v }) ∧
      (i = 6 → step s = .next { s with turns := rest, opc := v }) ∧
      (i = 0 → step s = .next { s with turns := rest, ctrl := { strict := decide (v % 2 = 1) } }) ∧
      (i = 2 → step s = issueWord (commandWord v) { s with turns := rest }))

/-- R39, with the "Read returns" column of R37: `HostRead(i)` returns the register and changes no state; while a command
is in flight the result registers read as 0. The list `returned` is where the model keeps what was returned (log entry 3). -/
def Obligations.HostReadProcedure : Prop :=
  ∀ (s : State) (i : Index) (rest : List Turn), s.cfg.wf = true → s.turns = .hostRead i :: rest →
    step s = .next { s with
      turns := rest
      returned :=
        (if i = 0 then (if s.ctrl.strict then 1 else 0)
        else if i = 1 then (statusWord s.status).toNat
        else if i = 4 then s.opa
        else if i = 5 then s.opb
        else if i = 6 then s.opc
        else if i = 8 then s.res0
        else if i = 9 then s.res1
        else if i = 10 then s.res2
        else 0) :: s.returned } ∧
    (BlockInv s → s.status.busy = true → i.val ∈ [8, 9, 10] →
      step s = .next { s with turns := rest, returned := 0 :: s.returned })

/-- R49: of a value written to CTRL only bit 0 counts and of one written to CMD only bits 7:0, and reads of CTRL, STATUS and
CMD are zero above bit 7. -/
def Obligations.WideWriteDataIsIgnored : Prop :=
  (∀ (s : State) (v v' : Nat), s.cfg.wf = true → v < 2 ^ s.cfg.width → v' < 2 ^ s.cfg.width → ∀ rest : List Turn,
    (v % 2 = v' % 2 → step { s with turns := .hostWrite 0 v :: rest } = step { s with turns := .hostWrite 0 v' :: rest }) ∧
    (v % 256 = v' % 256 →
      step { s with turns := .hostWrite 2 v :: rest } = step { s with turns := .hostWrite 2 v' :: rest })) ∧
  (∀ (s : State) (i : Index), i.val ∈ [0, 1, 2] → readPort (portReg i) s < 256)

/-- 20_memory.md R45 (b): a read after a write to the same index returns the written value, for OPA, OPB and OPC in full
and for CTRL its bit 0, where `BUSY = 0` at the write. -/
def Obligations.ReadAfterWriteReturnsTheValue : Prop :=
  ∀ (s : State) (i : Index) (v : Nat) (rest : List Turn),
    s.cfg.wf = true → s.status.busy = false → v < 2 ^ s.cfg.width → s.turns = .hostWrite i v :: .hostRead i :: rest →
    i.val ∈ [0, 4, 5, 6] →
    ∃ t t', step s = .next t ∧ step t = .next t' ∧ t'.turns = rest ∧
      t'.returned = (if i = 0 then v % 2 else v) :: s.returned

/-! ### STATUS, the block's faults, reset -/

/-- 10_state.md R20: the layout of STATUS, and what sets and what clears each field. An issue is a write to CMD while
idle; a completion is the engine's turn while busy. -/
def Obligations.StatusRegisterRules : Prop :=
  (∀ st : Status, (statusWord st).toNat =
    st.busy.toNat + 2 * st.done.toNat + 4 * st.err.toNat + 8 * st.busyErr.toNat + 16 * st.xNeg.toNat +
      32 * st.yNeg.toNat + 64 * st.ecode.toNat) ∧
  (∀ s s' : State, step s = .next s' →
    let issue := ∃ v rest, s.turns = .hostWrite 2 v :: rest ∧ s.status.busy = false
    let completion := s.status.busy = true ∧ (s.turns = [] ∨ ∃ rest, s.turns = .engine :: rest)
    let reset := ∃ rest, s.turns = .reset :: rest
    let dropped := s.status.busy = true ∧ ∃ t rest, s.turns = t :: rest ∧ t.writesGuarded = true
    (s.status.busy = false → s'.status.busy = true → issue ∧ s'.status.err = false) ∧
    (s.status.busy = true → s'.status.busy = false → completion ∨ reset) ∧
    (s.status.done = false → s'.status.done = true → completion) ∧
    (s.status.done = true → s'.status.done = false → issue ∨ reset) ∧
    (s.status.err = false → s'.status.err = true → issue) ∧
    (s.status.err = true → s'.status.err = false → issue ∨ reset) ∧
    (s.status.busyErr = false → s'.status.busyErr = true → dropped) ∧
    (s.status.busyErr = true → s'.status.busyErr = false → issue ∨ reset) ∧
    (s.status.xNeg = false → s'.status.xNeg = true → completion ∧ s.pend = 3#4) ∧
    (s.status.xNeg = true → s'.status.xNeg = false → issue ∨ completion ∨ reset) ∧
    (s.status.yNeg = false → s'.status.yNeg = true → completion ∧ (s.pend = 3#4 ∨ s.pend = 4#4)) ∧
    (s.status.yNeg = true → s'.status.yNeg = false → issue ∨ completion ∨ reset) ∧
    (s'.status.ecode ≠ s.status.ecode → issue ∨ reset))

/-- 60_exceptions.md R88: the state after a faulted issue, whatever raised the fault, and the STATUS value of each code. -/
def Obligations.FaultEntryLeavesThisState : Prop :=
  ∀ (s t : State) (v : Nat) (rest : List Turn),
    BlockInv s → s.status.busy = false → s.turns = .hostWrite 2 v :: rest → step s = .next t → t.status.busy = false →
    t = { s with
      turns := rest, res0 := 0, res1 := 0, res2 := 0, pend := 0#4
      status := { busy := false, done := false, err := true, busyErr := false, xNeg := false, yNeg := false,
                  ecode := t.status.ecode } } ∧
    (t.status.ecode = 1#2 ∧ statusWord t.status = 0x44#8 ∨ t.status.ecode = 2#2 ∧ statusWord t.status = 0x84#8 ∨
      t.status.ecode = 3#2 ∧ statusWord t.status = 0xC4#8)

/-- 70_reset_and_hazards.md R105: reset, at any time and in any state, sets every bit of state to 0 in one step. -/
def Obligations.ResetClearsEveryRegister : Prop :=
  ∀ (s : State) (rest : List Turn), s.cfg.wf = true → s.turns = .reset :: rest →
    step s = .next
      { cfg := s.cfg, ctrl := { strict := false }
        status := { busy := false, done := false, err := false, busyErr := false, xNeg := false, yNeg := false,
                    ecode := 0#2 }
        opa := 0, opb := 0, opc := 0, res0 := 0, res1 := 0, res2 := 0, pend := 0#4
        turns := rest, returned := s.returned }

/-- 10_state.md R30: after reset every bit of state is 0, and CMD, like every index, reads 0. -/
def Obligations.ResetStateIsAllZero : Prop :=
  ∀ c : Config, let r := State.resetWith c
    ctrlWord r.ctrl = 0#8 ∧ statusWord r.status = 0#8 ∧ r.opa = 0 ∧ r.opb = 0 ∧ r.opc = 0 ∧ r.res0 = 0 ∧ r.res1 = 0 ∧
    r.res2 = 0 ∧ r.pend = 0#4 ∧ (∀ i : Index, readPort (portReg i) r = 0) ∧
    State.reset = State.resetWith State.reset.cfg

/-- R107: after a reset, a command that was in flight never completes: as long as the host writes nothing to CMD, BUSY and
DONE stay 0 and the result registers stay 0, for any number of steps. -/
def Obligations.ResetAbandonsTheCommand : Prop :=
  ∀ (s : State) (ts : List Turn) (k : Nat), BlockInv s → s.turns = .reset :: ts → (∀ t ∈ ts, t.writesCmd = false) →
    ∃ t, runSteps (k + 1) s = .next t ∧ t.status.busy = false ∧ t.status.done = false ∧ t.pend = 0#4 ∧
      t.res0 = 0 ∧ t.res1 = 0 ∧ t.res2 = 0

/-! ### The whole machine -/

/-- The invariant holds after reset, at every legal width (10_state.md R29, R30), the width of `State.reset` among them
(the model's choice, log entry 1). -/
def Obligations.InvariantHoldsAtReset : Prop :=
  (∀ c : Config, c.wf = true → BlockInv (State.resetWith c)) ∧ BlockInv State.reset

/-- Every step keeps the invariant: R29, and that every number written fits its register (00_scope.md R8). -/
def Obligations.EveryStepKeepsTheInvariant : Prop :=
  ∀ s s' : State, BlockInv s → step s = .next s' → BlockInv s'

/-- In a state that meets the invariant the machine never stops: no fault, no refusal. -/
def Obligations.InvariantStatesNeverStop : Prop :=
  ∀ s : State, BlockInv s → ∃ s', step s = .next s'

/-- 10_state.md R29, items 1 to 8, in every reachable state; item 7 as it speaks of the past. -/
def Obligations.ReachableStatesMeetTheSpecInvariants : Prop :=
  (∀ s : State, Reachable s →
    (s.status.busy = true → s.status.done = false ∧ s.status.err = false ∧ s.status.ecode = 0#2 ∧
      s.status.xNeg = false ∧ s.status.yNeg = false ∧ s.res0 = 0 ∧ s.res1 = 0 ∧ s.res2 = 0 ∧
      s.pend ∈ [1#4, 2#4, 3#4, 4#4, 5#4]) ∧
    (s.status.busy = false → s.pend = 0#4) ∧
    (s.status.err = true ↔ s.status.ecode ≠ 0#2) ∧
    (s.status.err = true → s.status.busy = false ∧ s.status.done = false ∧ s.status.xNeg = false ∧
      s.status.yNeg = false ∧ s.res0 = 0 ∧ s.res1 = 0 ∧ s.res2 = 0) ∧
    (s.status.done = true → s.status.busy = false ∧ s.status.err = false) ∧
    (s.status.xNeg = true → s.status.done = true ∧ s.res1 ≠ 0) ∧
    (s.status.yNeg = true → s.status.done = true ∧ s.res2 ≠ 0) ∧
    (s.pend = 5#4 → s.opc ≠ 0 ∧ (s.ctrl.strict = true → s.opa < s.opc))) ∧
  (∀ s : State, NoAcceptSinceReset s → s.status.busyErr = false)

/-- R113: no command and no fault writes OPA, OPB or OPC; they, and CTRL, change only by a host write to them while idle
and by reset. The result registers are not preserved: every issue clears them. No step changes the configuration. -/
def Obligations.OperandsChangeOnlyByHostWriteOrReset : Prop :=
  ∀ s s' : State, step s = .next s' →
    s'.cfg = s.cfg ∧
    (s.status.busy = false → (∃ v rest, s.turns = .hostWrite 2 v :: rest) → s'.res0 = 0 ∧ s'.res1 = 0 ∧ s'.res2 = 0) ∧
    ((∃ rest, s.turns = .reset :: rest) ∨
      (s'.opa ≠ s.opa → s.status.busy = false ∧ ∃ rest, s.turns = .hostWrite 4 s'.opa :: rest) ∧
      (s'.opb ≠ s.opb → s.status.busy = false ∧ ∃ rest, s.turns = .hostWrite 5 s'.opb :: rest) ∧
      (s'.opc ≠ s.opc → s.status.busy = false ∧ ∃ rest, s.turns = .hostWrite 6 s'.opc :: rest) ∧
      (s'.ctrl ≠ s.ctrl → s.status.busy = false ∧ ∃ v rest, s.turns = .hostWrite 0 v :: rest))

/-- R17: the result registers are written only by a command issue, which clears all three, by completion, which writes all
three together, and by reset. -/
def Obligations.ResultsChangeOnlyByIssueCompletionReset : Prop :=
  ∀ s s' : State, step s = .next s' → (s'.res0 ≠ s.res0 ∨ s'.res1 ≠ s.res1 ∨ s'.res2 ≠ s.res2) →
    (s.status.busy = false ∧ (∃ v rest, s.turns = .hostWrite 2 v :: rest) ∧ s'.res0 = 0 ∧ s'.res1 = 0 ∧ s'.res2 = 0) ∨
    (s.status.busy = true ∧ (s.turns = [] ∨ ∃ rest, s.turns = .engine :: rest) ∧ s'.status.done = true) ∨
    ((∃ rest, s.turns = .reset :: rest) ∧ s'.res0 = 0 ∧ s'.res1 = 0 ∧ s'.res2 = 0)

/-- 10_state.md R21, R27, 20_memory.md R47: while a command is in flight, nothing but a reset can change its operands,
CTRL or PEND before it completes. -/
def Obligations.BusyFreezesTheOperands : Prop :=
  ∀ s s' : State, s.status.busy = true → step s = .next s' → (∀ rest, s.turns ≠ .reset :: rest) →
    s'.opa = s.opa ∧ s'.opb = s.opb ∧ s'.opc = s.opc ∧ s'.ctrl = s.ctrl ∧
    (s'.status.busy = true → s'.pend = s.pend ∧ s'.res0 = s.res0 ∧ s'.res1 = s.res1 ∧ s'.res2 = s.res2)

/-- 20_memory.md R47, 70_reset_and_hazards.md R115: however many host transactions fall between an accept and its
completion, and whatever they are, the completed state is the one of completing at once, but for BUSYERR, which then says
whether one of them was a dropped write, and for what the host read. -/
def Obligations.ResultsDoNotDependOnTiming : Prop :=
  ∀ (s : State) (ts rest : List Turn), BlockInv s → s.status.busy = true → s.turns = ts ++ .engine :: rest →
    (∀ t ∈ ts, t.isTransaction = true) →
    ∃ t u, runSteps (ts.length + 1) s = .next t ∧ step { s with turns := .engine :: rest } = .next u ∧
      t = { u with
        status := { u.status with busyErr := s.status.busyErr || ts.any Turn.writesGuarded }
        returned := t.returned } ∧
      u.status.busy = false ∧ u.status.done = true ∧ u.returned = s.returned

/-- 70_reset_and_hazards.md R114, R117, with the order of steps as the model holds it (log entry 2): every run ends, and idle. Once the host has nothing more to do a command in flight
completes, and then nothing changes any more. -/
def Obligations.EveryRunEndsIdle : Prop :=
  ∀ s : State, BlockInv s → ∃ t, t.ended = true ∧
    ∀ k, runSteps (s.turns.length + 1 + k) s = .next t

/-- 30_encoding.md R62 and R63: the expansions of ENCRYPT and DECRYPT, and what they leave in RES0 from any idle state
where no fault is raised, however many reads `WAIT` makes before the completion. How the turns of `WAIT` are laid out is the model's choice (log
entry 11). -/
def Obligations.EncryptAndDecryptComputeThePower : Prop :=
  (∀ m e n : Nat, (Pseudo.encrypt m e n).expand = [.wr 4 m, .wr 5 e, .wr 6 n, .command .modpow, .wait] ∧
    (Pseudo.decrypt m e n).expand = [.wr 4 m, .wr 5 e, .wr 6 n, .command .modpow, .wait]) ∧
  (∀ early m e n : Nat, turnsOf early [.wr 4 m, .wr 5 e, .wr 6 n, .command .modpow, .wait] =
    [.hostWrite 4 m, .hostWrite 5 e, .hostWrite 6 n, .hostWrite 2 0x05] ++
      List.replicate early (.hostRead 1) ++ [.engine, .hostRead 1]) ∧
  ∀ (s : State) (early m e n : Nat) (rest : List Turn) (p : Pseudo), (p = .encrypt m e n ∨ p = .decrypt m e n) →
    BlockInv s → s.status.busy = false → s.turns = turnsOf early p.expand ++ rest →
    n ≠ 0 → (s.ctrl.strict = true → m < n) →
    ∃ t, runSteps (early + 6) s = .next t ∧ t.res0 = m ^ e % n ∧ t.res1 = 0 ∧ t.res2 = 0 ∧
      statusWord t.status = 0x02#8 ∧ t.opa = m ∧ t.opb = e ∧ t.opc = n ∧ t.ctrl = s.ctrl ∧ t.turns = rest ∧
      t.returned.head? = some 0x02

/-- R64: DERIVED leaves `gcd(e, phi)` in RES0 and the normalised coefficient in RES1, from any idle state, however many
reads `WAIT` makes; where the two are coprime and `phi ≥ 2`, that is the inverse of `e`. How the turns of `WAIT` are laid
out is the model's choice (log entry 11). -/
def Obligations.DerivedComputesTheExponent : Prop :=
  (∀ e phi : Nat, (Pseudo.derived e phi).expand = [.wr 4 e, .wr 5 phi, .command .xgcdn, .wait]) ∧
  ∀ (s : State) (early e phi : Nat) (rest : List Turn),
    BlockInv s → s.status.busy = false → s.turns = turnsOf early (Pseudo.derived e phi).expand ++ rest →
    ∃ t, runSteps (early + 5) s = .next t ∧ t.res0 = euclidGcd e phi ∧
      (t.res1 : Int) = normalise (egcd e phi).2.1 phi ∧ t.status.done = true ∧ t.status.err = false ∧
      t.opa = e ∧ t.opb = phi ∧ t.opc = s.opc ∧ t.turns = rest ∧
      (euclidGcd e phi = 1 → 2 ≤ phi → e * t.res1 % phi = 1)

/-- 42_modpow.md R84 and R85: for a valid key pair (`n = p·q` for two different primes, `e·d ≡ 1` modulo `(p−1)(q−1)`),
encrypting a message below `n` and decrypting what came out gives the message back, in either mode of CTRL; in the
reference mode (`STRICT = 0`) a longer message comes back modulo `n`. -/
def Obligations.DecryptRecoversTheMessage : Prop :=
  ∀ (s : State) (p q e d m : Nat), Nat.Prime p → Nat.Prime q → p ≠ q → e * d ≡ 1 [MOD (p - 1) * (q - 1)] →
    (s.ctrl.strict = true → m < p * q) → s.status.busy = false →
    ∃ s1 s2 s3 s4, exec .modpow { s with opa := m, opb := e, opc := p * q } = .next s1 ∧ exec .modpow s1 = .next s2 ∧
      exec .modpow { s2 with opa := s2.res0, opb := d } = .next s3 ∧ exec .modpow s3 = .next s4 ∧ s4.res0 = m % (p * q) ∧
      (m < p * q → s4.res0 = m)

/-- 70_reset_and_hazards.md R112: after a write to CMD and the completion, if it was accepted, the block is not busy and
exactly one of ERR and DONE is 1, whatever the word. -/
def Obligations.ExactlyOneOfErrAndDone : Prop :=
  ∀ (s : State) (v : Nat) (rest : List Turn), BlockInv s → s.status.busy = false →
    s.turns = .hostWrite 2 v :: .engine :: rest →
    ∃ t, runSteps 2 s = .next t ∧ t.status.busy = false ∧ t.turns = rest ∧
      (t.status.err = true ∧ t.status.done = false ∨ t.status.err = false ∧ t.status.done = true)

/-- 20_memory.md R45 (d): once `DONE = 1`, the results, their signs, DONE, ERR and ECODE stay as they are until the next
write to CMD or reset, for any number of steps and whatever else the host does. -/
def Obligations.CommittedResultsStay : Prop :=
  ∀ (s : State) (k : Nat), BlockInv s → s.status.done = true → (∀ t ∈ s.turns, t.writesCmd = false ∧ t ≠ .reset) →
    ∃ t, runSteps k s = .next t ∧ t.res0 = s.res0 ∧ t.res1 = s.res1 ∧ t.res2 = s.res2 ∧ t.status = s.status ∧
      t.pend = s.pend

/-- Where the model stops, and nowhere else: a width that is no legal configuration, a write value the port cannot express
(93_implementation_defined.md part 2 item 9, 20_memory.md R35), and the two completions for which the spec gives no effect,
in states it says are unreachable (10_state.md R29 items 1 and 8). Log entries 6, 7 and 8. -/
def Obligations.TheMachineStopsExactlyHere : Prop :=
  ∀ s : State,
    let engineNext := s.cfg.wf = true ∧ s.status.busy = true ∧ (s.turns = [] ∨ ∃ rest, s.turns = .engine :: rest)
    (step s = .refused .illegalWidth ↔ s.cfg.wf = false) ∧
    (step s = .refused .valueTooWide ↔
      s.cfg.wf = true ∧ ∃ i v rest, s.turns = .hostWrite i v :: rest ∧ 2 ^ s.cfg.width ≤ v) ∧
    (∀ m, step s ≠ .refused (.notModelled m)) ∧
    (step s = .fault .pendNotACommand ↔ engineNext ∧ s.pend ∉ [1#4, 2#4, 3#4, 4#4, 5#4]) ∧
    (step s = .fault .modulusZeroAtCompletion ↔ engineNext ∧ s.pend = 5#4 ∧ s.opc = 0)
end

