-- ==== Sys2Proof/Laws/Arithmetic.lean ====
section
/-! SUPPORT. The loops of the three units: that their bounds on the number of passes never show. -/

namespace Sys2Proof.Machine

/-- Enough passes of the Euclidean loop give the greatest common divisor (spec/41_gcd.md R70). -/
theorem gcdLoop_eq {k a b : Nat} (enough : b ≤ k) : gcdLoop k a b = Nat.gcd a b := by
  induction k generalizing a b with
  | zero =>
    obtain rfl : b = 0 := by omega
    simp [gcdLoop]
  | succ k ih =>
    rw [gcdLoop]
    split
    · simp_all
    · rename_i hb
      have := Nat.mod_lt a (Nat.pos_of_ne_zero hb)
      rw [ih (by omega), Nat.gcd_comm b, ← Nat.gcd_rec, Nat.gcd_comm]

/-- `b` passes are enough (R70). -/
theorem euclidGcd_eq (a b : Nat) : euclidGcd a b = Nat.gcd a b := gcdLoop_eq le_rfl

/-- Any two bounds that are enough give the same triple (R72, R77). -/
theorem egcdRec_bound {k l a b : Nat} (hk : a ≤ k) (hl : a ≤ l) : egcdRec k a b = egcdRec l a b := by
  induction k generalizing l a b with
  | zero =>
    obtain rfl : a = 0 := by omega
    cases l <;> simp [egcdRec]
  | succ k ih =>
    cases l with
    | zero =>
      obtain rfl : a = 0 := by omega
      simp [egcdRec]
    | succ l =>
      rw [egcdRec, egcdRec]
      split
      · rfl
      · rename_i ha
        have := Nat.mod_lt b (Nat.pos_of_ne_zero ha)
        rw [ih (l := l) (by omega) (by omega)]

/-- The recursive step of R72, part by part. -/
theorem egcd_pos {a b : Nat} (h : 0 < a) :
    egcd a b = ((egcd (b % a) a).1, (egcd (b % a) a).2.2 - ((b / a : Nat) : Int) * (egcd (b % a) a).2.1,
      (egcd (b % a) a).2.1) := by
  have := Nat.mod_lt b h
  obtain ⟨k, rfl⟩ : ∃ k, a = k + 1 := ⟨a - 1, by omega⟩
  unfold egcd
  rw [egcdRec]
  simp only [Nat.succ_ne_zero, if_false]
  rw [egcdRec_bound (k := k) (l := b % (k + 1)) (by omega) le_rfl]

/-- One pass of the trial division, and what is left of it (spec/40_isprime.md R66): with passes enough to bring `i` past
the square root, the loop finds no divisor exactly when no `i + 6j` and no `i + 6j + 2` in range divides `n`. -/
theorem trialLoop_eq_true {k n i : Nat} (enough : n < (i + 6 * k) * (i + 6 * k)) :
    trialLoop k n i = true ↔
      ∀ j, (i + 6 * j) * (i + 6 * j) ≤ n → ¬ (i + 6 * j) ∣ n ∧ ¬ (i + 6 * j + 2) ∣ n := by
  induction k generalizing i with
  | zero =>
    simp only [trialLoop, true_iff]
    intro j hj
    have : i * i ≤ (i + 6 * j) * (i + 6 * j) := Nat.mul_le_mul (by omega) (by omega)
    simp only [Nat.mul_zero, Nat.add_zero] at enough
    omega
  | succ k ih =>
    have shift : n < (i + 6 + 6 * k) * (i + 6 + 6 * k) := by
      have : i + 6 * (k + 1) = i + 6 + 6 * k := by ring
      rwa [this] at enough
    have ih := ih shift
    rw [trialLoop]
    split
    · rename_i hlt
      simp only [true_iff]
      intro j hj
      have : i * i ≤ (i + 6 * j) * (i + 6 * j) := Nat.mul_le_mul (by omega) (by omega)
      omega
    · rename_i hle
      split
      · rename_i hd
        simp only [Bool.false_eq_true, false_iff, not_forall]
        exact ⟨0, by simpa using hle, fun h => h.1 (by simpa using Nat.dvd_of_mod_eq_zero hd)⟩
      · split
        · rename_i hd
          simp only [Bool.false_eq_true, false_iff, not_forall]
          exact ⟨0, by simpa using hle, fun h => h.2 (by simpa using Nat.dvd_of_mod_eq_zero hd)⟩
        · rename_i h1 h2
          rw [ih]
          constructor
          · intro h j hj
            cases j with
            | zero =>
              simp only [Nat.mul_zero, Nat.add_zero]
              exact ⟨fun hd => h1 (Nat.mod_eq_zero_of_dvd hd), fun hd => h2 (Nat.mod_eq_zero_of_dvd hd)⟩
            | succ j =>
              have e : i + 6 * (j + 1) = i + 6 + 6 * j := by ring
              rw [e] at hj ⊢
              exact h j hj
          · intro h j hj
            have e : i + 6 + 6 * j = i + 6 * (j + 1) := by ring
            rw [e] at hj ⊢
            exact h (j + 1) hj

end Sys2Proof.Machine
end

