-- ==== Sys2Proof/Laws/Decode.lean ====
section
/-! SUPPORT. The small lemmas of the decoder and the encoder. -/

namespace Sys2Proof

@[simp] theorem rsvField_encode (i : Instr) : rsvField (encode i) = 0#4 := by cases i <;> rfl

@[simp] theorem opcodeField_encode (i : Instr) : opcodeField (encode i) = opcodeOf i := by cases i <;> rfl

@[simp] theorem commandOf_opcodeOf (i : Instr) : commandOf (opcodeOf i) = some i := by cases i <;> rfl

/-- The opcodes that name a command, and the command each names (spec/30_encoding.md R52). -/
theorem commandOf_eq_some {op : Opcode} {i : Instr} : commandOf op = some i ↔ op = opcodeOf i := by
  constructor
  · intro h
    revert i
    revert op
    decide +revert
  · rintro rfl
    exact commandOf_opcodeOf i

/-- The opcodes that name no command (R53). -/
theorem commandOf_eq_none {op : Opcode} :
    commandOf op = none ↔ op ∉ [1#4, 2#4, 3#4, 4#4, 5#4] := by
  revert op
  decide

/-- Each command has its own opcode. -/
theorem opcodeOf_injective {i j : Instr} (h : opcodeOf i = opcodeOf j) : i = j := by
  have := congrArg commandOf h
  simpa using this

/-- A word decodes to a command exactly when its reserved bits are 0 and its opcode is the command's (R50, R52). -/
theorem decode_eq_ok {c : Byte} {i : Instr} :
    decode c = .ok i ↔ rsvField c = 0#4 ∧ opcodeField c = opcodeOf i := by
  unfold decode
  split
  · simp_all
  · rename_i h
    rw [ne_eq, not_not] at h
    cases hc : commandOf (opcodeField c) with
    | none =>
      simp only [h, true_and, reduceCtorEq, false_iff]
      intro e
      rw [e, commandOf_opcodeOf] at hc
      cases hc
    | some j =>
      simp only [Except.ok.injEq, h, true_and, commandOf_eq_some.mp hc]
      exact ⟨congrArg opcodeOf, opcodeOf_injective⟩

/-- A word is rejected exactly when a reserved bit is set or its opcode names no command (R53). -/
theorem decode_eq_error {c : Byte} :
    (∃ r, decode c = .error r) ↔ rsvField c ≠ 0#4 ∨ opcodeField c ∉ [1#4, 2#4, 3#4, 4#4, 5#4] := by
  unfold decode
  split
  · simp_all
  · rename_i h
    rw [ne_eq, not_not] at h
    rw [← commandOf_eq_none]
    cases hc : commandOf (opcodeField c) <;> simp [h]

/-- Bits 7:4 of a value written to CMD (R50). -/
theorem rsvField_commandWord (v : Nat) : (rsvField (commandWord v)).toNat = v % 256 / 16 := by
  simp only [rsvField, commandWord, BitVec.extractLsb'_toNat, Nat.shiftRight_eq_div_pow, BitVec.toNat_ofNat]
  omega

/-- Bits 3:0 of a value written to CMD (R50). -/
theorem opcodeField_commandWord (v : Nat) : (opcodeField (commandWord v)).toNat = v % 256 % 16 := by
  simp [opcodeField, commandWord, BitVec.extractLsb'_toNat]

/-- A value written to CMD is a command exactly when its low byte is the command's word (R50, R52). -/
theorem decode_commandWord {v : Nat} {i : Instr} :
    decode (commandWord v) = .ok i ↔ v % 256 = (opcodeOf i).toNat := by
  rw [decode_eq_ok, ← BitVec.toNat_inj, ← BitVec.toNat_inj, rsvField_commandWord, opcodeField_commandWord]
  cases i <;> simp [opcodeOf] <;> omega

end Sys2Proof
end

