-- ==== Sys2Proof/Laws/State.lean ====
section
/-! SUPPORT. One lemma per field per update of State, each true by rfl, so that no proof unfolds a record update. -/

namespace Sys2Proof.Machine

variable (s : State)

@[simp] theorem State.clearForIssue_cfg : s.clearForIssue.cfg = s.cfg := rfl
@[simp] theorem State.clearForIssue_ctrl : s.clearForIssue.ctrl = s.ctrl := rfl
@[simp] theorem State.clearForIssue_busy : s.clearForIssue.status.busy = s.status.busy := rfl
@[simp] theorem State.clearForIssue_done : s.clearForIssue.status.done = false := rfl
@[simp] theorem State.clearForIssue_err : s.clearForIssue.status.err = s.status.err := rfl
@[simp] theorem State.clearForIssue_busyErr : s.clearForIssue.status.busyErr = false := rfl
@[simp] theorem State.clearForIssue_xNeg : s.clearForIssue.status.xNeg = false := rfl
@[simp] theorem State.clearForIssue_yNeg : s.clearForIssue.status.yNeg = false := rfl
@[simp] theorem State.clearForIssue_ecode : s.clearForIssue.status.ecode = s.status.ecode := rfl
@[simp] theorem State.clearForIssue_opa : s.clearForIssue.opa = s.opa := rfl
@[simp] theorem State.clearForIssue_opb : s.clearForIssue.opb = s.opb := rfl
@[simp] theorem State.clearForIssue_opc : s.clearForIssue.opc = s.opc := rfl
@[simp] theorem State.clearForIssue_res0 : s.clearForIssue.res0 = 0 := rfl
@[simp] theorem State.clearForIssue_res1 : s.clearForIssue.res1 = 0 := rfl
@[simp] theorem State.clearForIssue_res2 : s.clearForIssue.res2 = 0 := rfl
@[simp] theorem State.clearForIssue_pend : s.clearForIssue.pend = s.pend := rfl
@[simp] theorem State.clearForIssue_turns : s.clearForIssue.turns = s.turns := rfl
@[simp] theorem State.clearForIssue_returned : s.clearForIssue.returned = s.returned := rfl

@[simp] theorem State.raise_cfg (f : Cause) : (s.raise f).cfg = s.cfg := rfl
@[simp] theorem State.raise_ctrl (f : Cause) : (s.raise f).ctrl = s.ctrl := rfl
@[simp] theorem State.raise_busy (f : Cause) : (s.raise f).status.busy = s.status.busy := rfl
@[simp] theorem State.raise_done (f : Cause) : (s.raise f).status.done = s.status.done := rfl
@[simp] theorem State.raise_err (f : Cause) : (s.raise f).status.err = true := rfl
@[simp] theorem State.raise_busyErr (f : Cause) : (s.raise f).status.busyErr = s.status.busyErr := rfl
@[simp] theorem State.raise_xNeg (f : Cause) : (s.raise f).status.xNeg = s.status.xNeg := rfl
@[simp] theorem State.raise_yNeg (f : Cause) : (s.raise f).status.yNeg = s.status.yNeg := rfl
@[simp] theorem State.raise_ecode (f : Cause) : (s.raise f).status.ecode = causeCode f := rfl
@[simp] theorem State.raise_opa (f : Cause) : (s.raise f).opa = s.opa := rfl
@[simp] theorem State.raise_opb (f : Cause) : (s.raise f).opb = s.opb := rfl
@[simp] theorem State.raise_opc (f : Cause) : (s.raise f).opc = s.opc := rfl
@[simp] theorem State.raise_res0 (f : Cause) : (s.raise f).res0 = s.res0 := rfl
@[simp] theorem State.raise_res1 (f : Cause) : (s.raise f).res1 = s.res1 := rfl
@[simp] theorem State.raise_res2 (f : Cause) : (s.raise f).res2 = s.res2 := rfl
@[simp] theorem State.raise_pend (f : Cause) : (s.raise f).pend = s.pend := rfl
@[simp] theorem State.raise_turns (f : Cause) : (s.raise f).turns = s.turns := rfl
@[simp] theorem State.raise_returned (f : Cause) : (s.raise f).returned = s.returned := rfl

@[simp] theorem State.accept_cfg (op : Opcode) : (s.accept op).cfg = s.cfg := rfl
@[simp] theorem State.accept_ctrl (op : Opcode) : (s.accept op).ctrl = s.ctrl := rfl
@[simp] theorem State.accept_busy (op : Opcode) : (s.accept op).status.busy = true := rfl
@[simp] theorem State.accept_done (op : Opcode) : (s.accept op).status.done = s.status.done := rfl
@[simp] theorem State.accept_err (op : Opcode) : (s.accept op).status.err = false := rfl
@[simp] theorem State.accept_busyErr (op : Opcode) : (s.accept op).status.busyErr = s.status.busyErr := rfl
@[simp] theorem State.accept_xNeg (op : Opcode) : (s.accept op).status.xNeg = s.status.xNeg := rfl
@[simp] theorem State.accept_yNeg (op : Opcode) : (s.accept op).status.yNeg = s.status.yNeg := rfl
@[simp] theorem State.accept_ecode (op : Opcode) : (s.accept op).status.ecode = 0#2 := rfl
@[simp] theorem State.accept_opa (op : Opcode) : (s.accept op).opa = s.opa := rfl
@[simp] theorem State.accept_opb (op : Opcode) : (s.accept op).opb = s.opb := rfl
@[simp] theorem State.accept_opc (op : Opcode) : (s.accept op).opc = s.opc := rfl
@[simp] theorem State.accept_res0 (op : Opcode) : (s.accept op).res0 = s.res0 := rfl
@[simp] theorem State.accept_res1 (op : Opcode) : (s.accept op).res1 = s.res1 := rfl
@[simp] theorem State.accept_res2 (op : Opcode) : (s.accept op).res2 = s.res2 := rfl
@[simp] theorem State.accept_pend (op : Opcode) : (s.accept op).pend = op := rfl
@[simp] theorem State.accept_turns (op : Opcode) : (s.accept op).turns = s.turns := rfl
@[simp] theorem State.accept_returned (op : Opcode) : (s.accept op).returned = s.returned := rfl

@[simp] theorem State.commit_cfg (r : Results) : (s.commit r).cfg = s.cfg := rfl
@[simp] theorem State.commit_ctrl (r : Results) : (s.commit r).ctrl = s.ctrl := rfl
@[simp] theorem State.commit_busy (r : Results) : (s.commit r).status.busy = false := rfl
@[simp] theorem State.commit_done (r : Results) : (s.commit r).status.done = true := rfl
@[simp] theorem State.commit_err (r : Results) : (s.commit r).status.err = s.status.err := rfl
@[simp] theorem State.commit_busyErr (r : Results) : (s.commit r).status.busyErr = s.status.busyErr := rfl
@[simp] theorem State.commit_xNeg (r : Results) : (s.commit r).status.xNeg = r.xNeg := rfl
@[simp] theorem State.commit_yNeg (r : Results) : (s.commit r).status.yNeg = r.yNeg := rfl
@[simp] theorem State.commit_ecode (r : Results) : (s.commit r).status.ecode = s.status.ecode := rfl
@[simp] theorem State.commit_opa (r : Results) : (s.commit r).opa = s.opa := rfl
@[simp] theorem State.commit_opb (r : Results) : (s.commit r).opb = s.opb := rfl
@[simp] theorem State.commit_opc (r : Results) : (s.commit r).opc = s.opc := rfl
@[simp] theorem State.commit_res0 (r : Results) : (s.commit r).res0 = r.res0 := rfl
@[simp] theorem State.commit_res1 (r : Results) : (s.commit r).res1 = r.res1 := rfl
@[simp] theorem State.commit_res2 (r : Results) : (s.commit r).res2 = r.res2 := rfl
@[simp] theorem State.commit_pend (r : Results) : (s.commit r).pend = 0#4 := rfl
@[simp] theorem State.commit_turns (r : Results) : (s.commit r).turns = s.turns := rfl
@[simp] theorem State.commit_returned (r : Results) : (s.commit r).returned = s.returned := rfl

@[simp] theorem State.dropWrite_cfg : s.dropWrite.cfg = s.cfg := rfl
@[simp] theorem State.dropWrite_ctrl : s.dropWrite.ctrl = s.ctrl := rfl
@[simp] theorem State.dropWrite_busy : s.dropWrite.status.busy = s.status.busy := rfl
@[simp] theorem State.dropWrite_done : s.dropWrite.status.done = s.status.done := rfl
@[simp] theorem State.dropWrite_err : s.dropWrite.status.err = s.status.err := rfl
@[simp] theorem State.dropWrite_busyErr : s.dropWrite.status.busyErr = true := rfl
@[simp] theorem State.dropWrite_xNeg : s.dropWrite.status.xNeg = s.status.xNeg := rfl
@[simp] theorem State.dropWrite_yNeg : s.dropWrite.status.yNeg = s.status.yNeg := rfl
@[simp] theorem State.dropWrite_ecode : s.dropWrite.status.ecode = s.status.ecode := rfl
@[simp] theorem State.dropWrite_opa : s.dropWrite.opa = s.opa := rfl
@[simp] theorem State.dropWrite_opb : s.dropWrite.opb = s.opb := rfl
@[simp] theorem State.dropWrite_opc : s.dropWrite.opc = s.opc := rfl
@[simp] theorem State.dropWrite_res0 : s.dropWrite.res0 = s.res0 := rfl
@[simp] theorem State.dropWrite_res1 : s.dropWrite.res1 = s.res1 := rfl
@[simp] theorem State.dropWrite_res2 : s.dropWrite.res2 = s.res2 := rfl
@[simp] theorem State.dropWrite_pend : s.dropWrite.pend = s.pend := rfl
@[simp] theorem State.dropWrite_turns : s.dropWrite.turns = s.turns := rfl
@[simp] theorem State.dropWrite_returned : s.dropWrite.returned = s.returned := rfl

@[simp] theorem State.setOpa_cfg (v : Nat) : (s.setOpa v).cfg = s.cfg := rfl
@[simp] theorem State.setOpa_ctrl (v : Nat) : (s.setOpa v).ctrl = s.ctrl := rfl
@[simp] theorem State.setOpa_status (v : Nat) : (s.setOpa v).status = s.status := rfl
@[simp] theorem State.setOpa_opa (v : Nat) : (s.setOpa v).opa = v := rfl
@[simp] theorem State.setOpa_opb (v : Nat) : (s.setOpa v).opb = s.opb := rfl
@[simp] theorem State.setOpa_opc (v : Nat) : (s.setOpa v).opc = s.opc := rfl
@[simp] theorem State.setOpa_res0 (v : Nat) : (s.setOpa v).res0 = s.res0 := rfl
@[simp] theorem State.setOpa_res1 (v : Nat) : (s.setOpa v).res1 = s.res1 := rfl
@[simp] theorem State.setOpa_res2 (v : Nat) : (s.setOpa v).res2 = s.res2 := rfl
@[simp] theorem State.setOpa_pend (v : Nat) : (s.setOpa v).pend = s.pend := rfl
@[simp] theorem State.setOpa_turns (v : Nat) : (s.setOpa v).turns = s.turns := rfl
@[simp] theorem State.setOpa_returned (v : Nat) : (s.setOpa v).returned = s.returned := rfl

@[simp] theorem State.setOpb_cfg (v : Nat) : (s.setOpb v).cfg = s.cfg := rfl
@[simp] theorem State.setOpb_ctrl (v : Nat) : (s.setOpb v).ctrl = s.ctrl := rfl
@[simp] theorem State.setOpb_status (v : Nat) : (s.setOpb v).status = s.status := rfl
@[simp] theorem State.setOpb_opa (v : Nat) : (s.setOpb v).opa = s.opa := rfl
@[simp] theorem State.setOpb_opb (v : Nat) : (s.setOpb v).opb = v := rfl
@[simp] theorem State.setOpb_opc (v : Nat) : (s.setOpb v).opc = s.opc := rfl
@[simp] theorem State.setOpb_res0 (v : Nat) : (s.setOpb v).res0 = s.res0 := rfl
@[simp] theorem State.setOpb_res1 (v : Nat) : (s.setOpb v).res1 = s.res1 := rfl
@[simp] theorem State.setOpb_res2 (v : Nat) : (s.setOpb v).res2 = s.res2 := rfl
@[simp] theorem State.setOpb_pend (v : Nat) : (s.setOpb v).pend = s.pend := rfl
@[simp] theorem State.setOpb_turns (v : Nat) : (s.setOpb v).turns = s.turns := rfl
@[simp] theorem State.setOpb_returned (v : Nat) : (s.setOpb v).returned = s.returned := rfl

@[simp] theorem State.setOpc_cfg (v : Nat) : (s.setOpc v).cfg = s.cfg := rfl
@[simp] theorem State.setOpc_ctrl (v : Nat) : (s.setOpc v).ctrl = s.ctrl := rfl
@[simp] theorem State.setOpc_status (v : Nat) : (s.setOpc v).status = s.status := rfl
@[simp] theorem State.setOpc_opa (v : Nat) : (s.setOpc v).opa = s.opa := rfl
@[simp] theorem State.setOpc_opb (v : Nat) : (s.setOpc v).opb = s.opb := rfl
@[simp] theorem State.setOpc_opc (v : Nat) : (s.setOpc v).opc = v := rfl
@[simp] theorem State.setOpc_res0 (v : Nat) : (s.setOpc v).res0 = s.res0 := rfl
@[simp] theorem State.setOpc_res1 (v : Nat) : (s.setOpc v).res1 = s.res1 := rfl
@[simp] theorem State.setOpc_res2 (v : Nat) : (s.setOpc v).res2 = s.res2 := rfl
@[simp] theorem State.setOpc_pend (v : Nat) : (s.setOpc v).pend = s.pend := rfl
@[simp] theorem State.setOpc_turns (v : Nat) : (s.setOpc v).turns = s.turns := rfl
@[simp] theorem State.setOpc_returned (v : Nat) : (s.setOpc v).returned = s.returned := rfl

@[simp] theorem State.setCtrl_cfg (v : Nat) : (s.setCtrl v).cfg = s.cfg := rfl
@[simp] theorem State.setCtrl_ctrl (v : Nat) : (s.setCtrl v).ctrl = { strict := v.testBit 0 } := rfl
@[simp] theorem State.setCtrl_status (v : Nat) : (s.setCtrl v).status = s.status := rfl
@[simp] theorem State.setCtrl_opa (v : Nat) : (s.setCtrl v).opa = s.opa := rfl
@[simp] theorem State.setCtrl_opb (v : Nat) : (s.setCtrl v).opb = s.opb := rfl
@[simp] theorem State.setCtrl_opc (v : Nat) : (s.setCtrl v).opc = s.opc := rfl
@[simp] theorem State.setCtrl_res0 (v : Nat) : (s.setCtrl v).res0 = s.res0 := rfl
@[simp] theorem State.setCtrl_res1 (v : Nat) : (s.setCtrl v).res1 = s.res1 := rfl
@[simp] theorem State.setCtrl_res2 (v : Nat) : (s.setCtrl v).res2 = s.res2 := rfl
@[simp] theorem State.setCtrl_pend (v : Nat) : (s.setCtrl v).pend = s.pend := rfl
@[simp] theorem State.setCtrl_turns (v : Nat) : (s.setCtrl v).turns = s.turns := rfl
@[simp] theorem State.setCtrl_returned (v : Nat) : (s.setCtrl v).returned = s.returned := rfl

@[simp] theorem State.returnToHost_cfg (v : Nat) : (s.returnToHost v).cfg = s.cfg := rfl
@[simp] theorem State.returnToHost_ctrl (v : Nat) : (s.returnToHost v).ctrl = s.ctrl := rfl
@[simp] theorem State.returnToHost_status (v : Nat) : (s.returnToHost v).status = s.status := rfl
@[simp] theorem State.returnToHost_opa (v : Nat) : (s.returnToHost v).opa = s.opa := rfl
@[simp] theorem State.returnToHost_opb (v : Nat) : (s.returnToHost v).opb = s.opb := rfl
@[simp] theorem State.returnToHost_opc (v : Nat) : (s.returnToHost v).opc = s.opc := rfl
@[simp] theorem State.returnToHost_res0 (v : Nat) : (s.returnToHost v).res0 = s.res0 := rfl
@[simp] theorem State.returnToHost_res1 (v : Nat) : (s.returnToHost v).res1 = s.res1 := rfl
@[simp] theorem State.returnToHost_res2 (v : Nat) : (s.returnToHost v).res2 = s.res2 := rfl
@[simp] theorem State.returnToHost_pend (v : Nat) : (s.returnToHost v).pend = s.pend := rfl
@[simp] theorem State.returnToHost_turns (v : Nat) : (s.returnToHost v).turns = s.turns := rfl
@[simp] theorem State.returnToHost_returned (v : Nat) : (s.returnToHost v).returned = v :: s.returned := rfl

@[simp] theorem State.withTurns_cfg (ts : List Turn) : (s.withTurns ts).cfg = s.cfg := rfl
@[simp] theorem State.withTurns_ctrl (ts : List Turn) : (s.withTurns ts).ctrl = s.ctrl := rfl
@[simp] theorem State.withTurns_status (ts : List Turn) : (s.withTurns ts).status = s.status := rfl
@[simp] theorem State.withTurns_opa (ts : List Turn) : (s.withTurns ts).opa = s.opa := rfl
@[simp] theorem State.withTurns_opb (ts : List Turn) : (s.withTurns ts).opb = s.opb := rfl
@[simp] theorem State.withTurns_opc (ts : List Turn) : (s.withTurns ts).opc = s.opc := rfl
@[simp] theorem State.withTurns_res0 (ts : List Turn) : (s.withTurns ts).res0 = s.res0 := rfl
@[simp] theorem State.withTurns_res1 (ts : List Turn) : (s.withTurns ts).res1 = s.res1 := rfl
@[simp] theorem State.withTurns_res2 (ts : List Turn) : (s.withTurns ts).res2 = s.res2 := rfl
@[simp] theorem State.withTurns_pend (ts : List Turn) : (s.withTurns ts).pend = s.pend := rfl
@[simp] theorem State.withTurns_turns (ts : List Turn) : (s.withTurns ts).turns = ts := rfl
@[simp] theorem State.withTurns_returned (ts : List Turn) : (s.withTurns ts).returned = s.returned := rfl

@[simp] theorem State.resetStep_cfg : s.resetStep.cfg = s.cfg := rfl
@[simp] theorem State.resetStep_ctrl : s.resetStep.ctrl = { strict := false } := rfl
@[simp] theorem State.resetStep_status : s.resetStep.status = Status.zero := rfl
@[simp] theorem State.resetStep_opa : s.resetStep.opa = 0 := rfl
@[simp] theorem State.resetStep_opb : s.resetStep.opb = 0 := rfl
@[simp] theorem State.resetStep_opc : s.resetStep.opc = 0 := rfl
@[simp] theorem State.resetStep_res0 : s.resetStep.res0 = 0 := rfl
@[simp] theorem State.resetStep_res1 : s.resetStep.res1 = 0 := rfl
@[simp] theorem State.resetStep_res2 : s.resetStep.res2 = 0 := rfl
@[simp] theorem State.resetStep_pend : s.resetStep.pend = 0#4 := rfl
@[simp] theorem State.resetStep_turns : s.resetStep.turns = s.turns := rfl
@[simp] theorem State.resetStep_returned : s.resetStep.returned = s.returned := rfl

@[simp] theorem State.issue_none (op : Opcode) : s.issue op none = s.clearForIssue.accept op := rfl
@[simp] theorem State.issue_some (op : Opcode) (f : Cause) : s.issue op (some f) = s.clearForIssue.raise f := rfl
@[simp] theorem State.faultEntry_eq (f : Cause) : s.faultEntry f = s.clearForIssue.raise f := rfl

/-- Reset leaves every bit of the block's state 0 (spec/10_state.md R30), at any width. -/
theorem State.resetStep_eq :
    s.resetStep = { State.resetWith s.cfg with turns := s.turns, returned := s.returned } := rfl

/-- Taking a step off the list and putting it back changes nothing. -/
@[simp] theorem State.withTurns_self : s.withTurns s.turns = s := rfl

end Sys2Proof.Machine
end

