-- ==== Sys2Proof/Laws/Exec.lean ====
section
/-! SUPPORT. What `exec` can do, said once: an idle block issues, a busy one completes. -/

namespace Sys2Proof.Machine

/-- The fault a command's issue raises, if any (spec/60_exceptions.md R87): MODPOW's alone. -/
def causeOf (i : Instr) (s : State) : Option Cause :=
  match i with
  | .isprime => none
  | .gcd => none
  | .xgcd => none
  | .xgcdn => none
  | .modpow => modpowCause s.ctrl.strict s.opa s.opc

/-- What a command writes at completion (10_state.md R31). -/
def resultsOf (i : Instr) (s : State) : Results :=
  match i with
  | .isprime => isprimeResults s.opa
  | .gcd => gcdResults s.opa s.opb
  | .xgcd => xgcdResults s.opa s.opb
  | .xgcdn => xgcdnResults s.opa s.opb
  | .modpow => modpowResults s.opa s.opb s.opc

/-- While idle, every command is issued (30_encoding.md R54). -/
theorem exec_idle {s : State} (i : Instr) (idle : s.status.busy = false) :
    exec i s = .next (s.issue (opcodeOf i) (causeOf i s)) := by
  cases i <;> simp [exec, execIsprime, execGcd, execXgcd, execXgcdn, execModpow, causeOf, idle]

/-- In flight, every command completes (30_encoding.md R56), MODPOW where it has a modulus (42_modpow.md R81). -/
theorem exec_busy {s : State} (i : Instr) (busy : s.status.busy = true) (modulus : i = .modpow → s.opc ≠ 0) :
    exec i s = .next (s.commit (resultsOf i s)) := by
  cases i <;> simp_all [exec, execIsprime, execGcd, execXgcd, execXgcdn, execModpow, resultsOf]

/-- Everything `exec` can do when it answers a next state. -/
theorem exec_next_cases {i : Instr} {s s' : State} (h : exec i s = .next s') :
    (s.status.busy = false ∧ s' = s.issue (opcodeOf i) (causeOf i s)) ∨
    (s.status.busy = true ∧ (i = .modpow → s.opc ≠ 0) ∧ s' = s.commit (resultsOf i s)) := by
  cases hb : s.status.busy with
  | false =>
    rw [exec_idle i hb] at h
    cases h
    exact .inl ⟨rfl, rfl⟩
  | true =>
    have hm : i = .modpow → s.opc ≠ 0 := by
      rintro rfl hz
      simp [exec, execModpow, hb, hz] at h
    rw [exec_busy i hb hm] at h
    cases h
    exact .inr ⟨rfl, hm, rfl⟩

/-- No command writes the operands, CTRL, the configuration, or what the host has (70_reset_and_hazards.md R113). -/
theorem exec_frame {i : Instr} {s s' : State} (h : exec i s = .next s') :
    s'.cfg = s.cfg ∧ s'.ctrl = s.ctrl ∧ s'.opa = s.opa ∧ s'.opb = s.opb ∧ s'.opc = s.opc ∧
    s'.turns = s.turns ∧ s'.returned = s.returned := by
  obtain ⟨_, rfl⟩ | ⟨_, _, rfl⟩ := exec_next_cases h
  · cases causeOf i s <;> simp
  · simp

end Sys2Proof.Machine
end

