-- ==== Sys2Proof/Laws/PerInstr.lean ====
section
/-! SUPPORT. The families of facts about a command as syntax, one lemma per constructor. -/

namespace Sys2Proof.Laws

/-- A row of spec/opcode_table.json: the whole 8-bit word is tested (spec/30_encoding.md R52, mask 0xFF). -/
def tableMatch : Instr → Byte
  | .isprime => 0x01#8
  | .gcd => 0x02#8
  | .xgcd => 0x03#8
  | .xgcdn => 0x04#8
  | .modpow => 0x05#8

/-- The word of a command is its row's match under the mask 0xFF, its reserved bits are 0000, and the command is well
formed (R50, R52). -/
def CommandWord.Statement (i : Instr) : Prop :=
  encode i &&& 0xFF#8 = tableMatch i ∧ (encode i).extractLsb' 4 4 = 0#4 ∧ i.wf = true

theorem CommandWord.isprime : CommandWord.Statement .isprime := by unfold CommandWord.Statement; decide
theorem CommandWord.gcd : CommandWord.Statement .gcd := by unfold CommandWord.Statement; decide
theorem CommandWord.xgcd : CommandWord.Statement .xgcd := by unfold CommandWord.Statement; decide
theorem CommandWord.xgcdn : CommandWord.Statement .xgcdn := by unfold CommandWord.Statement; decide
theorem CommandWord.modpow : CommandWord.Statement .modpow := by unfold CommandWord.Statement; decide

end Sys2Proof.Laws
end

