-- ==== Sys2Proof/Laws/Step.lean ====
section
/-! SUPPORT. What a step can do, said once (`Move`, `step_moves`); every whole-machine fact follows by cases on it. -/

namespace Sys2Proof.Machine

/-- Everything a turn can do (spec/00_scope.md R12, 20_memory.md R39, R40, 30_encoding.md R54, R56). -/
inductive Move : Turn → State → State → Prop where
  | reset (s : State) : Move .reset s s.resetStep
  | read (i : Index) (s : State) : Move (.hostRead i) s (s.returnToHost (readPort (portReg i) s))
  | ignored (i : Index) (v : Nat) (s : State) (unguarded : i.val ∉ [0, 2, 4, 5, 6]) : Move (.hostWrite i v) s s
  | dropped (i : Index) (v : Nat) (s : State) (guarded : i.val ∈ [0, 2, 4, 5, 6]) (busy : s.status.busy = true) :
      Move (.hostWrite i v) s s.dropWrite
  | storeOpa (v : Nat) (s : State) (fits : v < 2 ^ s.cfg.width) (idle : s.status.busy = false) :
      Move (.hostWrite 4 v) s (s.setOpa v)
  | storeOpb (v : Nat) (s : State) (fits : v < 2 ^ s.cfg.width) (idle : s.status.busy = false) :
      Move (.hostWrite 5 v) s (s.setOpb v)
  | storeOpc (v : Nat) (s : State) (fits : v < 2 ^ s.cfg.width) (idle : s.status.busy = false) :
      Move (.hostWrite 6 v) s (s.setOpc v)
  | storeCtrl (v : Nat) (s : State) (idle : s.status.busy = false) : Move (.hostWrite 0 v) s (s.setCtrl v)
  | illegal (v : Nat) (r : Illegal) (s : State) (idle : s.status.busy = false)
      (word : decode (commandWord v) = .error r) : Move (.hostWrite 2 v) s (s.faultEntry .illegalCommand)
  | issued (i : Instr) (v : Nat) (s : State) (idle : s.status.busy = false)
      (word : decode (commandWord v) = .ok i) : Move (.hostWrite 2 v) s (s.issue (opcodeOf i) (causeOf i s))
  | completed (i : Instr) (s : State) (busy : s.status.busy = true) (pending : s.pend = opcodeOf i)
      (modulus : i = .modpow → s.opc ≠ 0) : Move .engine s (s.commit (resultsOf i s))
  | noStep (s : State) (idle : s.status.busy = false) : Move .engine s s

/-- The index map says which register an index is, and no other index is that register (20_memory.md R37). -/
theorem portReg_spec (i : Index) :
    (i = 0 ∧ portReg i = .ctrl) ∨ (i = 1 ∧ portReg i = .status) ∨ (i = 2 ∧ portReg i = .cmd) ∨
    (i = 4 ∧ portReg i = .opa) ∨ (i = 5 ∧ portReg i = .opb) ∨ (i = 6 ∧ portReg i = .opc) ∨
    (i = 8 ∧ portReg i = .res0) ∨ (i = 9 ∧ portReg i = .res1) ∨ (i = 10 ∧ portReg i = .res2) ∨
    (i.val ∉ [0, 1, 2, 4, 5, 6, 8, 9, 10] ∧ portReg i = .reserved) := by
  revert i
  decide

/-- What a host write can do (20_memory.md R40). -/
theorem hostWrite_moves {i : Index} {v : Nat} {s s' : State} (fits : v < 2 ^ s.cfg.width)
    (h : hostWrite i v s = .next s') : Move (.hostWrite i v) s s' := by
  cases hb : s.status.busy with
  | true =>
    obtain ⟨rfl, e⟩ | ⟨rfl, e⟩ | ⟨rfl, e⟩ | ⟨rfl, e⟩ | ⟨rfl, e⟩ | ⟨rfl, e⟩ | ⟨rfl, e⟩ | ⟨rfl, e⟩ | ⟨rfl, e⟩ | ⟨n, e⟩ :=
      portReg_spec i <;> simp only [hostWrite, e, whenIdle, hb, if_true, Host.Outcome.next.injEq] at h <;> subst h
    case inl | inr.inr.inl | inr.inr.inr.inl | inr.inr.inr.inr.inl | inr.inr.inr.inr.inr.inl =>
      exact .dropped _ _ _ (by decide) hb
    all_goals refine .ignored _ _ _ ?_
    all_goals first | decide | (simp only [List.mem_cons, not_or] at n ⊢; tauto)
  | false =>
    obtain ⟨rfl, e⟩ | ⟨rfl, e⟩ | ⟨rfl, e⟩ | ⟨rfl, e⟩ | ⟨rfl, e⟩ | ⟨rfl, e⟩ | ⟨rfl, e⟩ | ⟨rfl, e⟩ | ⟨rfl, e⟩ | ⟨n, e⟩ :=
      portReg_spec i <;>
      simp only [hostWrite, e, whenIdle, hb, Bool.false_eq_true, if_false, Host.Outcome.next.injEq] at h
    case inr.inr.inl =>
      unfold issueWord at h
      split at h
      · rename_i j hj
        rw [exec_idle j hb] at h
        cases h
        exact .issued _ _ _ hb hj
      · rename_i r hr
        cases h
        exact .illegal _ _ _ hb hr
    all_goals subst h
    case inl => exact .storeCtrl _ _ hb
    case inr.inr.inr.inl => exact .storeOpa _ _ fits hb
    case inr.inr.inr.inr.inl => exact .storeOpb _ _ fits hb
    case inr.inr.inr.inr.inr.inl => exact .storeOpc _ _ fits hb
    all_goals refine .ignored _ _ _ ?_
    all_goals first | decide | (simp only [List.mem_cons, not_or] at n ⊢; tauto)

/-- What the engine's turn can do (30_encoding.md R56). -/
theorem engineTurn_moves {s s' : State} (h : engineTurn s = .next s') : Move .engine s s' := by
  unfold engineTurn at h
  split at h
  · rename_i hb
    unfold complete at h
    split at h
    · rename_i i hi
      obtain ⟨hf, _⟩ | ⟨_, hm, rfl⟩ := exec_next_cases h
      · simp [hb] at hf
      · exact .completed i s hb (commandOf_eq_some.mp hi) hm
    · cases h
  · cases h
    exact .noStep _ (by simp_all)

/-- What a turn can do. -/
theorem takeTurn_moves {t : Turn} {s s' : State} (h : takeTurn t s = .next s') : Move t s s' := by
  cases t with
  | reset => cases h; exact .reset s
  | hostRead i => cases h; exact .read i s
  | hostWrite i v =>
    rw [takeTurn] at h
    split at h
    · exact hostWrite_moves ‹_› h
    · cases h
  | engine => exact engineTurn_moves h

/-- Everything a step can do: the configuration is legal, and the next turn of the list is taken, or the engine's where
the list is empty. -/
theorem step_moves {s s' : State} (h : step s = .next s') :
    s.cfg.wf = true ∧ ∃ t rest, (s.turns = t :: rest ∨ (s.turns = [] ∧ t = .engine ∧ rest = [])) ∧
      Move t (s.withTurns rest) s' := by
  unfold step at h
  split at h
  · rename_i hw
    refine ⟨hw, ?_⟩
    unfold advance at h
    split at h
    · rename_i ht
      refine ⟨.engine, [], .inr ⟨ht, rfl, rfl⟩, ?_⟩
      have : s.withTurns [] = s := by rw [← ht]; rfl
      rw [this]
      exact engineTurn_moves h
    · rename_i t rest ht
      exact ⟨t, rest, .inl ht, takeTurn_moves h⟩
  · cases h

/-- A step whose next turn is known is that turn, taken off the list. -/
theorem step_cons {s : State} {t : Turn} {rest : List Turn} (legal : s.cfg.wf = true) (ht : s.turns = t :: rest) :
    step s = takeTurn t (s.withTurns rest) := by
  simp [step, legal, advance, ht]

/-- A host write the port can express, as a step (20_memory.md R40). -/
theorem step_write {s : State} {i : Index} {v : Nat} {rest : List Turn} (legal : s.cfg.wf = true)
    (ht : s.turns = .hostWrite i v :: rest) (fits : v < 2 ^ s.cfg.width) :
    step s = hostWrite i v (s.withTurns rest) := by
  rw [step_cons legal ht]
  simp [takeTurn, fits]

/-- A host read, as a step (20_memory.md R39). -/
theorem step_read {s : State} {i : Index} {rest : List Turn} (legal : s.cfg.wf = true)
    (ht : s.turns = .hostRead i :: rest) :
    step s = .next ((s.withTurns rest).returnToHost (readPort (portReg i) s)) := by
  rw [step_cons legal ht]
  simp only [takeTurn, hostRead]
  congr 2

/-- The invariant's width is legal. -/
theorem BlockInv.legal {s : State} (h : BlockInv s) : s.cfg.wf = true := decide_eq_true h.width

/-- In a state that meets the invariant the next write is one the port can express. -/
theorem BlockInv.fits {s : State} (h : BlockInv s) {i : Index} {v : Nat} {rest : List Turn}
    (ht : s.turns = .hostWrite i v :: rest) : v < 2 ^ s.cfg.width := by
  have := h.turns (.hostWrite i v) (by simp [ht])
  simpa [Turn.wf] using this

/-- With nothing left for the host to do, the step is the engine's (00_scope.md R12). -/
theorem step_nil {s : State} (legal : s.cfg.wf = true) (ht : s.turns = []) : step s = engineTurn s := by
  simp [step, legal, advance, ht]

/-- A run of one step more, from its first step. -/
theorem runSteps_succ {k : Nat} {s s' : State} (h : step s = .next s') : runSteps (k + 1) s = runSteps k s' := by
  rw [runSteps, h]

/-- A run of one step more, from its last step. -/
theorem runSteps_last {k : Nat} {s t : State} (h : runSteps k s = .next t) : runSteps (k + 1) s = step t := by
  induction k generalizing s with
  | zero =>
    cases h
    rw [runSteps]
    split <;> simp_all [runSteps]
  | succ k ih =>
    rw [runSteps] at h ⊢
    cases hs : step s with
    | next s' =>
      simp only [hs] at h ⊢
      exact ih h
    | fault r => simp [hs] at h
    | refused r => simp [hs] at h

/-- A run goes on from where it is. -/
theorem runSteps_add {a : Nat} (b : Nat) {s t : State} (h : runSteps a s = .next t) :
    runSteps (a + b) s = runSteps b t := by
  induction a generalizing s with
  | zero =>
    cases h
    rw [Nat.zero_add]
  | succ a ih =>
    rw [runSteps] at h
    rw [Nat.add_right_comm, runSteps]
    cases hs : step s with
    | next s' =>
      simp only [hs] at h ⊢
      exact ih h
    | fault r => simp [hs] at h
    | refused r => simp [hs] at h

end Sys2Proof.Machine
end

