-- ==== Sys2Proof/Tests/Slice0.lean ====
section
/-! SUPPORT. The model's own tests, then one witness for every obligation that has hypotheses. Expected values are the
vectors of spec/95_test_vectors.md, named by their ids, or are worked from the rule a test names. -/

namespace Sys2Proof.Tests

open Sys2Proof.Machine

/-! ### Small states -/

/-- An idle block at W = 64 with the three operands given. -/
def idleWith (a b c : Nat) : State := { State.reset with opa := a, opb := b, opc := c }

/-- A block with the command of opcode `op` in flight and the three operands given. -/
def busyWith (op : Opcode) (a b c : Nat) : State :=
  { idleWith a b c with status := { Status.zero with busy := true }, pend := op }

/-- The same state with these turns next. -/
def thenTurns (s : State) (ts : List Turn) : State := { s with turns := ts }

/-- RES0, RES1, RES2 and STATUS of a next state. -/
def results : Host.Outcome State Fault Refusal → Option (Nat × Nat × Nat × Nat)
  | .next s => some (s.res0, s.res1, s.res2, (statusWord s.status).toNat)
  | .fault _ => none
  | .refused _ => none

/-- CTRL, OPA, PEND and STATUS of a next state. -/
def controls : Host.Outcome State Fault Refusal → Option (Nat × Nat × Nat × Nat)
  | .next s => some ((ctrlWord s.ctrl).toNat, s.opa, s.pend.toNat, (statusWord s.status).toNat)
  | .fault _ => none
  | .refused _ => none

/-- The outcome is this next state. -/
def nextIs (o : Host.Outcome State Fault Refusal) (t : State) : Bool :=
  match o with
  | .next s => decide (s = t)
  | .fault _ => false
  | .refused _ => false

theorem next_of_nextIs {o : Host.Outcome State Fault Refusal} {t : State} (h : nextIs o t = true) : o = .next t := by
  unfold nextIs at h
  split at h
  · exact congrArg _ (of_decide_eq_true h)
  · cases h
  · cases h

/-! ### Well-formedness: the checks refuse what they should -/

/-- R5: `W ≥ 8`. -/
theorem test_width_seven_is_ill_formed :
    Config.wf { width := 7 } = false ∧ Config.wf { width := 8 } = true := by decide

/-- R35: a write value is below `2^W`. -/
theorem test_write_value_out_of_range_is_ill_formed :
    Turn.wf { width := 8 } (.hostWrite 4 256) = false ∧ Turn.wf { width := 8 } (.hostWrite 4 255) = true := by decide

/-- Of a command there is nothing to check (R50, R51). -/
theorem test_every_command_is_well_formed :
    ∀ i ∈ [Instr.isprime, .gcd, .xgcd, .xgcdn, .modpow], i.wf = true := by decide

/-- The step refuses an illegal width and a value the port cannot express. -/
theorem test_step_refuses_what_is_ill_formed :
    step (State.resetWith { width := 7 }) = .refused .illegalWidth ∧
    step (thenTurns (State.resetWith { width := 8 }) [.hostWrite 4 256]) = .refused .valueTooWide := ⟨rfl, rfl⟩

/-! ### Decoding: each word written out from R50 and R52 -/

theorem test_decode_isprime : decodeTableWord 8 0b00000001 = some .isprime := by decide
theorem test_decode_gcd : decodeTableWord 8 0b00000010 = some .gcd := by decide
theorem test_decode_xgcd : decodeTableWord 8 0b00000011 = some .xgcd := by decide
theorem test_decode_xgcdn : decodeTableWord 8 0b00000100 = some .xgcdn := by decide
theorem test_decode_modpow : decodeTableWord 8 0b00000101 = some .modpow := by decide

/-- R53, and the words of vector H15: rejected by name. -/
theorem test_decode_rejects :
    decode 0b00000000#8 = .error .unassignedOpcode ∧ decode 0b00000110#8 = .error .unassignedOpcode ∧
    decode 0b00001111#8 = .error .unassignedOpcode ∧ decode 0b00010000#8 = .error .reservedBits ∧
    decode 0b00010101#8 = .error .reservedBits ∧ decode 0b10000001#8 = .error .reservedBits ∧
    decode 0b11111111#8 = .error .reservedBits := ⟨rfl, rfl, rfl, rfl, rfl, rfl, rfl⟩

/-! ### The five commands: the issue as the first step after reset, and a completion -/

/-- H7: accept gives STATUS 0x01 and PEND 1. -/
theorem test_isprime_issue : controls (step (State.reset.withFetchWord 8 0x01)) = some (0, 0, 1, 0x01) := by decide
/-- IP14: 49 is found by `i + 2 = 7`. IP22: the loop ends on 251 with `289 > 251`. -/
theorem test_isprime_completes :
    results (step (busyWith 1#4 49 0 0)) = some (0, 0, 0, 0x02) ∧
    results (step (busyWith 1#4 251 0 0)) = some (1, 0, 0, 0x02) := by decide

theorem test_gcd_issue : controls (step (State.reset.withFetchWord 8 0x02)) = some (0, 0, 2, 0x01) := by decide
/-- G13 and G17. -/
theorem test_gcd_completes :
    results (step (busyWith 2#4 1071 462 0)) = some (21, 0, 0, 0x02) ∧
    results (step (busyWith 2#4 18446744073709551615 4294967295 0)) = some (4294967295, 0, 0, 0x02) := by decide

theorem test_xgcd_issue : controls (step (State.reset.withFetchWord 8 0x03)) = some (0, 0, 3, 0x01) := by decide
/-- X12 (`x = −2`, `y = 7`) and X13 (`x = 7`, `y = −2`): the operands exchanged. -/
theorem test_xgcd_completes :
    results (step (busyWith 3#4 17 5 0)) = some (1, 2, 7, 0x12) ∧
    results (step (busyWith 3#4 5 17 0)) = some (1, 7, 2, 0x22) := by decide

theorem test_xgcdn_issue : controls (step (State.reset.withFetchWord 8 0x04)) = some (0, 0, 4, 0x01) := by decide
/-- N3 (`d = 1` is not reduced), N8 (`−2 + 5`) and N9 (`x ≥ 0`, YNEG). -/
theorem test_xgcdn_completes :
    results (step (busyWith 4#4 1 1 0)) = some (1, 1, 0, 0x02) ∧
    results (step (busyWith 4#4 17 5 0)) = some (1, 3, 7, 0x02) ∧
    results (step (busyWith 4#4 5 17 0)) = some (1, 7, 2, 0x22) := by decide

/-- M26: after reset OPC is 0, so MODPOW raises ArithmeticError; M28: InvalidInput; M29: accepted. -/
theorem test_modpow_issue :
    controls (step (State.reset.withFetchWord 8 0x05)) = some (0, 0, 0, 0x84) ∧
    controls (exec .modpow { idleWith 7 3 7 with ctrl := { strict := true } }) = some (1, 7, 0, 0xC4) ∧
    controls (exec .modpow { idleWith 6 3 7 with ctrl := { strict := true } }) = some (1, 6, 5, 0x01) := by decide
/-- M1 (modulus 1 wins over exponent 0), M2 (`0 ^ 0 = 1`) and M13. -/
theorem test_modpow_completes :
    results (step (busyWith 5#4 0 0 1)) = some (0, 0, 0, 0x02) ∧
    results (step (busyWith 5#4 0 0 2)) = some (1, 0, 0, 0x02) ∧
    results (step (busyWith 5#4 255 255 251)) = some (20, 0, 0, 0x02) := by decide

/-! ### The host port and the reset -/

/-- H14: an illegal word clears the results. -/
theorem test_illegal_word_faults :
    results (step (thenTurns { idleWith 0 0 0 with res0 := 1, status := { Status.zero with done := true } }
      [.hostWrite 2 0x00])) = some (0, 0, 0, 0x44) := by decide

/-- H4 and H5: only bit 0 of CTRL is kept. -/
theorem test_ctrl_keeps_bit_zero :
    controls (step (thenTurns (idleWith 0 0 0) [.hostWrite 0 0xFF])) = some (0x01, 0, 0, 0x00) ∧
    controls (step (thenTurns { idleWith 0 0 0 with ctrl := { strict := true } } [.hostWrite 0 0xFE])) =
      some (0x00, 0, 0, 0x00) := by decide

/-- H9 and H10: writes while busy are dropped, an illegal word among them; H11: a read-only index sets no flag. -/
theorem test_writes_while_busy :
    controls (step (thenTurns (busyWith 1#4 251 0 0) [.hostWrite 4 9])) = some (0, 251, 1, 0x09) ∧
    controls (step (thenTurns (busyWith 1#4 251 0 0) [.hostWrite 2 0xFF])) = some (0, 251, 1, 0x09) ∧
    controls (step (thenTurns (busyWith 1#4 251 0 0) [.hostWrite 8 1])) = some (0, 251, 1, 0x01) := by decide

/-- H16: the high bits of a value written to CMD are ignored. -/
theorem test_command_is_the_low_byte :
    controls (step (thenTurns (idleWith 9 0 0) [.hostWrite 2 0x0101])) = some (0, 9, 1, 0x01) := by decide

/-- R20, R37: the layout of STATUS, read at index 1 (vector X12's 0x12), and CMD and a reserved index read 0. -/
theorem test_reads :
    readPort (portReg 1) { idleWith 0 0 0 with status := { Status.zero with done := true, xNeg := true } } = 0x12 ∧
    readPort (portReg 2) (busyWith 5#4 7 7 7) = 0 ∧ readPort (portReg 11) (busyWith 5#4 7 7 7) = 0 ∧
    readPort (portReg 5) (idleWith 1 2 3) = 2 := by decide

/-- H1, H19: reset while busy clears everything. -/
theorem test_reset_while_busy :
    step (thenTurns (busyWith 5#4 9 3 7) [.reset]) = .next State.reset := next_of_nextIs (by decide)

/-! ### Witnesses: for every obligation with hypotheses, values that meet them, clause by clause -/

theorem inv_idle : BlockInv (idleWith 42 7 60491) := by constructor <;> decide
theorem inv_idle_strict : BlockInv { idleWith 42 7 60491 with ctrl := { strict := true } } := by constructor <;> decide
theorem inv_busy : BlockInv (busyWith 3#4 60000 7 0) := by constructor <;> decide
theorem inv_busy_modpow : BlockInv { busyWith 5#4 42 7 60491 with ctrl := { strict := true } } := by
  constructor <;> decide

theorem witness_IllegalWordsRaiseIllegalCommand :
    ∀ v ∈ [0x00, 0x06, 0x0F, 0x10, 0x15, 0xFF, 0x100], State.reset.cfg.wf = true ∧ v < 2 ^ State.reset.cfg.width ∧
      State.reset.status.busy = false ∧ v % 256 ∉ [1, 2, 3, 4, 5] := by decide

theorem witness_StepRunsTheDecodedCommand_issue :
    ∀ i ∈ [Instr.isprime, .gcd, .xgcd, .xgcdn, .modpow], State.reset.cfg.wf = true ∧
      (encode i).toNat < 2 ^ State.reset.cfg.width ∧ State.reset.status.busy = false ∧
      decode (commandWord (encode i).toNat) = .ok i := fun i _ => by cases i <;> exact ⟨rfl, by decide, rfl, rfl⟩

theorem witness_StepRunsTheDecodedCommand_completion :
    ∀ i ∈ [Instr.isprime, .gcd, .xgcd, .xgcdn, .modpow], ∀ ts ∈ [[], [Turn.engine]],
      let s := thenTurns (busyWith (opcodeOf i) 42 7 60491) ts
      s.cfg.wf = true ∧ (s.turns = [.engine] ∨ s.turns = []) ∧ s.status.busy = true ∧ commandOf s.pend = some i := by
  decide

theorem witness_PlacedWordRunsNext :
    (busyWith 5#4 1 1 1).cfg.wf = true ∧ (State.resetWith { width := 8 }).cfg.wf = true := by decide

theorem witness_TrialDivisionContract :
    (1 ≤ 1) ∧ (3 < 4 ∧ 4 % 2 = 0) ∧ (3 < 9 ∧ 9 % 3 = 0) ∧
    (3 < 25 ∧ 25 % 2 ≠ 0 ∧ 25 % 3 ≠ 0 ∧ 5 ≤ 5 ∧ 5 % 6 = 5 ∧ 5 * 5 ≤ 25 ∧ 5 ∣ 25) ∧
    (3 < 49 ∧ 49 % 2 ≠ 0 ∧ 49 % 3 ≠ 0 ∧ 5 ≤ 7 ∧ 7 % 6 = 1 ∧ 7 * 7 ≤ 49 ∧ 7 ∣ 49) := by decide

theorem witness_GcdIsGreatestCommonDivisor :
    3 ∣ 12 ∧ 3 ∣ 18 ∧ ¬ (12 = 0 ∧ 18 = 0) ∧ ¬ (0 = 0 ∧ 5 = 0) ∧ 5 ∣ 0 ∧ 5 ∣ 5 := by decide

theorem witness_EgcdFollowsItsRecursion :
    0 < 12 ∧ egcd (18 % 12) 12 = (6, 1, 0) ∧ egcd 12 18 = (6, -1, 1) ∧ 0 < 1 ∧ egcd (0 % 1) 1 = (1, 0, 1) := by decide

/-- One pair of operands for each clause of R73: the equation and the bounds, `b = 0`, `a ∣ b`, `b ∣ a`, the register. -/
theorem witness_EgcdProperties :
    egcd 60000 7 = (1, -2, 17143) ∧ 0 < 60000 ∧ egcd 1 0 = (1, 1, 0) ∧ (0 < 1 ∧ 1 ∣ 7) ∧ (0 < 7 ∧ 7 ∣ 7) ∧
    (0 < 1 ∧ 1 < 7 ∧ 1 ∣ 7) ∧ (8 ≤ 8 ∧ 2 < 2 ^ 8 ∧ 255 < 2 ^ 8 ∧ egcd 2 255 = (1, -127, 1)) := by decide

/-- The longest descent on 8-bit operands (Fibonacci numbers), at the least number of calls the statement allows; and
that fewer calls may be too few. -/
theorem witness_EgcdNestedCallsBounded :
    144 < 2 ^ 8 ∧ 233 < 2 ^ 8 ∧ 2 * 8 + 2 ≤ 18 ∧ egcdRec 4 144 233 ≠ egcd 144 233 := by decide

/-- One pair of operands for each clause of R76. -/
theorem witness_XgcdnCoefficientRange :
    egcd 60000 7 = (1, -2, 17143) ∧ ((-2 : Int) < 0 ∧ 2 ≤ 7) ∧ egcd 7 60000 = (1, 17143, -2) ∧ ((0 : Int) ≤ 17143) ∧
    egcd 0 1 = (1, 0, 1) ∧ 0 ≠ 1 ∧ egcd 5 0 = (5, 1, 0) ∧ 0 < 5 ∧ egcd 0 0 = (0, 0, 1) ∧ egcd 1 1 = (1, 1, 0) ∧
    egcd 1 2 = (1, 1, 0) ∧ 2 ≤ 2 ∧ (8 ≤ 8 ∧ 254 < 2 ^ 8 ∧ 255 < 2 ^ 8 ∧ egcd 254 255 = (1, -1, 1)) := by decide

theorem witness_ModPowConsequences : 1 ≤ 1 ∧ 1 < 2 ∧ (1 ≤ 1 ∧ 1 ≤ 1) ∧ 1 ≤ 60491 := by decide

theorem witness_SquareMultiplyComputesModPow : 1 ≤ 1 ∧ 0 < 2 ^ 0 ∧ 1 ≤ 251 ∧ 255 < 2 ^ 8 := by decide

theorem witness_IsprimeIssuesAndCompletes :
    (idleWith 251 0 0).status.busy = false ∧ (busyWith 1#4 251 0 0).status.busy = true := by decide

theorem witness_GcdIssuesAndCompletes :
    (idleWith 7 60000 0).status.busy = false ∧ (busyWith 2#4 7 60000 0).status.busy = true := by decide

theorem witness_XgcdIssuesAndCompletes :
    (idleWith 17 5 0).status.busy = false ∧ (busyWith 3#4 17 5 0).status.busy = true ∧
    egcd (busyWith 3#4 17 5 0).opa (busyWith 3#4 17 5 0).opb = (1, -2, 7) ∧ 8 ≤ 8 ∧ 17 < 2 ^ 8 ∧ 5 < 2 ^ 8 ∧
    0 < 17 := by decide

theorem witness_XgcdnIssuesAndCompletes :
    (idleWith 17 5 0).status.busy = false ∧ (busyWith 4#4 17 5 0).status.busy = true ∧
    egcd (busyWith 4#4 17 5 0).opa (busyWith 4#4 17 5 0).opb = (1, -2, 7) ∧ (-2 : Int) < 0 := by decide

theorem witness_ModpowIssuesAndCompletes :
    let s := { idleWith 6 3 7 with ctrl := { strict := true } }
    (s.status.busy = false ∧ s.opc ≠ 0 ∧ s.ctrl.strict = true ∧ s.opa < s.opc) ∧
    ((busyWith 5#4 6 3 7).status.busy = true ∧ (busyWith 5#4 6 3 7).opc ≠ 0) ∧ 2 ≤ 2 ∧ (1 ≤ 1 ∧ 1 ≤ 1) ∧ 8 ≤ 8 := by
  decide

/-- M30 (`OPC = 0`), M28 (`OPA = OPC` in strict mode), M29 (`OPA = OPC − 1` in strict mode), and an accept with `OPC = 1`. -/
theorem witness_ModpowFaultsInOrder :
    let strict := fun a c => { idleWith a 3 c with ctrl := { strict := true } }
    ((strict 9 0).status.busy = false ∧ (strict 9 0).opc = 0) ∧
    ((strict 7 7).status.busy = false ∧ 1 ≤ (strict 7 7).opc ∧ (strict 7 7).ctrl.strict = true ∧
      (strict 7 7).opc ≤ (strict 7 7).opa) ∧
    ((strict 6 7).status.busy = false ∧ 1 ≤ (strict 6 7).opc ∧ (strict 6 7).ctrl.strict = true ∧
      (strict 6 7).opa < (strict 6 7).opc) ∧
    ((idleWith 9 3 1).status.busy = false ∧ 1 ≤ (idleWith 9 3 1).opc ∧ (idleWith 9 3 1).ctrl.strict = false) := by
  decide

theorem witness_OversizedBaseIsReduced :
    (idleWith 60491 3 60491).status.busy = false ∧ (idleWith 60491 3 60491).ctrl.strict = false ∧
    1 ≤ (idleWith 60491 3 60491).opc ∧ (idleWith 60491 3 60491).opc ≤ (idleWith 60491 3 60491).opa := by decide

theorem witness_XgcdRegistersSatisfyBezout :
    (busyWith 3#4 60000 7 0).status.busy = true ∧ (busyWith 3#4 0 0 0).status.busy = true := by decide

theorem witness_XgcdnYieldsTheInverse :
    (busyWith 4#4 3 2 0).status.busy = true ∧ euclidGcd (busyWith 4#4 3 2 0).opa (busyWith 4#4 3 2 0).opb = 1 ∧
    2 ≤ (busyWith 4#4 3 2 0).opb := by decide

/-- An accept, a fault and a completion. -/
theorem witness_CommandsLeaveTheRestUnchanged :
    (idleWith 251 0 0).status.busy = false ∧ exec .isprime (idleWith 251 0 0) = .next (busyWith 1#4 251 0 0) ∧
    exec .modpow (idleWith 5 3 0) =
      .next { idleWith 5 3 0 with status := { Status.zero with err := true, ecode := 2#2 } } ∧
    (busyWith 2#4 12 18 0).status.busy = true ∧ exec .gcd (busyWith 2#4 12 18 0) =
      .next { idleWith 12 18 0 with res0 := 6, status := { Status.zero with done := true } } :=
  ⟨by decide, next_of_nextIs (by decide), next_of_nextIs (by decide), by decide, next_of_nextIs (by decide)⟩

/-- Two busy states that differ in every register the command does not read. -/
theorem witness_UnreadRegistersAreIgnored :
    (∀ i ∈ [Instr.isprime, .gcd, .xgcd, .xgcdn, .modpow],
      let s := busyWith (opcodeOf i) 17 5 7
      let u := { busyWith (opcodeOf i) 17 (if i = .isprime then 6 else 5) (if i = .modpow then 7 else 0) with
        ctrl := { strict := true }, res0 := 3, status := { Status.zero with busy := true, busyErr := true } }
      s.status.busy = true ∧ u.status.busy = true ∧ s.opa = u.opa ∧ (i ≠ .isprime → s.opb = u.opb) ∧
      (i = .modpow → s.opc = u.opc ∧ s.opc ≠ 0)) := by decide

/-- Each of the four outcomes of an issue has values that reach it. -/
theorem witness_IssueProcedure :
    let strict := { idleWith 7 3 7 with ctrl := { strict := true } }
    (∀ v ∈ [0x00, 0x01, 0x05, 0x06, 0x10, 0x105], v < 2 ^ 64) ∧
    (strict.cfg.wf = true ∧ strict.status.busy = false ∧ strict.opc ≤ strict.opa ∧ strict.ctrl.strict = true) ∧
    ((idleWith 5 3 0).cfg.wf = true ∧ (idleWith 5 3 0).status.busy = false ∧ (idleWith 5 3 0).opc = 0) ∧
    strict.cfg.width = 64 := by decide

theorem witness_CompletionProcedure :
    ((idleWith 1 1 1).cfg.wf = true ∧ (thenTurns (idleWith 1 1 1) [.engine]).turns = [.engine] ∧
      (thenTurns (idleWith 1 1 1) [.engine]).status.busy = false) ∧
    (∀ op ∈ [1#4, 2#4, 3#4, 4#4, 5#4],
      let s := thenTurns (busyWith op 17 5 7) [.engine, .hostRead 1]
      s.cfg.wf = true ∧ s.turns = [.engine, .hostRead 1] ∧ s.status.busy = true ∧ s.pend = op ∧ s.opc ≠ 0 ∧
      egcd s.opa s.opb = (1, -2, 7)) := by decide

theorem witness_EngineMovesWhenTheHostIsDone :
    (idleWith 1 1 1).turns = [] ∧ (idleWith 1 1 1).cfg.wf = true ∧ (idleWith 1 1 1).status.busy = false ∧
    (busyWith 2#4 1 1 1).turns = [] := by decide

/-- A write to every index, idle and busy, with the greatest value. -/
theorem witness_HostWriteProcedure :
    ∀ i : Index, ∀ s ∈ [idleWith 1 1 1, busyWith 2#4 1 1 1],
      s.cfg.wf = true ∧ (thenTurns s [.hostWrite i (2 ^ 64 - 1)]).turns = [.hostWrite i (2 ^ 64 - 1)] ∧
      2 ^ 64 - 1 < 2 ^ s.cfg.width := by decide

theorem witness_HostReadProcedure :
    (idleWith 1 2 3).cfg.wf = true ∧ (busyWith 3#4 60000 7 0).status.busy = true ∧
    BlockInv (thenTurns (busyWith 3#4 60000 7 0) [.hostRead 8, .hostRead 10]) ∧
    (8 : Index).val ∈ [8, 9, 10] ∧ (10 : Index).val ∈ [8, 9, 10] :=
  ⟨by decide, by decide, { inv_busy with turns := by decide }, by decide, by decide⟩

theorem witness_WideWriteDataIsIgnored :
    State.reset.cfg.wf = true ∧ 0xFF < 2 ^ State.reset.cfg.width ∧ 0x01 < 2 ^ State.reset.cfg.width ∧
    0xFF % 2 = 0x01 % 2 ∧ 0x105 < 2 ^ State.reset.cfg.width ∧ 0x105 % 256 = 0x05 % 256 ∧
    (∀ i ∈ ([0, 1, 2] : List Index), i.val ∈ [0, 1, 2]) := by decide

theorem witness_ReadAfterWriteReturnsTheValue :
    ∀ i ∈ ([0, 4, 5, 6] : List Index),
      let s := thenTurns (idleWith 1 2 3) [.hostWrite i 255, .hostRead i]
      s.cfg.wf = true ∧ s.status.busy = false ∧ 255 < 2 ^ s.cfg.width ∧
      s.turns = .hostWrite i 255 :: .hostRead i :: [] ∧ i.val ∈ [0, 4, 5, 6] := by decide

/-- For each field of STATUS a step that sets it and a step that clears it. -/
theorem witness_StatusRegisterRules :
    results (step (thenTurns { idleWith 9 3 7 with status := { Status.zero with done := true, busyErr := true } }
      [.hostWrite 2 0x01])) = some (0, 0, 0, 0x01) ∧
    results (step (busyWith 3#4 17 5 0)) = some (1, 2, 7, 0x12) ∧
    results (step (busyWith 4#4 5 17 0)) = some (1, 7, 2, 0x22) ∧
    results (step (thenTurns { idleWith 9 3 7 with
      status := { Status.zero with done := true, xNeg := true, yNeg := true } } [.hostWrite 2 0x00])) =
      some (0, 0, 0, 0x44) ∧
    results (step (thenTurns { idleWith 9 3 7 with status := { Status.zero with err := true, ecode := 2#2 } }
      [.hostWrite 2 0x02])) = some (0, 0, 0, 0x01) ∧
    results (step (thenTurns (busyWith 1#4 9 3 7) [.hostWrite 0 1])) = some (0, 0, 0, 0x09) ∧
    results (step (thenTurns (busyWith 1#4 9 3 7) [.reset])) = some (0, 0, 0, 0x00) :=
  ⟨by decide, by decide, by decide, by decide, by decide, by decide, by decide⟩

/-- The three fault codes. -/
theorem witness_FaultEntryLeavesThisState :
    BlockInv (thenTurns (idleWith 5 3 0) [.hostWrite 2 0x00]) ∧ BlockInv (thenTurns (idleWith 5 3 0) [.hostWrite 2 5]) ∧
    BlockInv (thenTurns { idleWith 7 3 7 with ctrl := { strict := true } } [.hostWrite 2 5]) ∧
    step (thenTurns (idleWith 5 3 0) [.hostWrite 2 0x00]) =
      .next { idleWith 5 3 0 with status := { Status.zero with err := true, ecode := 1#2 } } ∧
    step (thenTurns (idleWith 5 3 0) [.hostWrite 2 5]) =
      .next { idleWith 5 3 0 with status := { Status.zero with err := true, ecode := 2#2 } } ∧
    step (thenTurns { idleWith 7 3 7 with ctrl := { strict := true } } [.hostWrite 2 5]) =
      .next { idleWith 7 3 7 with
        ctrl := { strict := true }, status := { Status.zero with err := true, ecode := 3#2 } } :=
  ⟨by constructor <;> decide, by constructor <;> decide, by constructor <;> decide,
    next_of_nextIs (by decide), next_of_nextIs (by decide), next_of_nextIs (by decide)⟩

theorem witness_ResetClearsEveryRegister :
    (busyWith 5#4 9 3 7).cfg.wf = true ∧ (thenTurns (busyWith 5#4 9 3 7) [.reset]).turns = [.reset] := by decide

theorem witness_ResetAbandonsTheCommand :
    let s := thenTurns (busyWith 1#4 65521 0 0) [.reset, .hostRead 1, .hostWrite 4 7]
    BlockInv s ∧ s.status.busy = true ∧ s.turns = .reset :: [.hostRead 1, .hostWrite 4 7] ∧
    (∀ t ∈ [Turn.hostRead 1, .hostWrite 4 7], t.writesCmd = false) :=
  ⟨by constructor <;> decide, by decide, by decide, by decide⟩

theorem witness_InvariantHoldsAtReset : Config.wf { width := 8 } = true ∧ Config.wf { width := 4096 } = true := by decide

/-- An accept and a completion, from states that meet the invariant. -/
theorem witness_EveryStepKeepsTheInvariant :
    BlockInv (thenTurns (idleWith 60000 7 0) [.hostWrite 2 0x03]) ∧
    step (thenTurns (idleWith 60000 7 0) [.hostWrite 2 0x03]) = .next (busyWith 3#4 60000 7 0) ∧
    BlockInv (busyWith 3#4 60000 7 0) ∧ step (busyWith 3#4 60000 7 0) = .next { idleWith 60000 7 0 with
      res0 := 1, res1 := 2, res2 := 17143, status := { Status.zero with done := true, xNeg := true } } :=
  ⟨by constructor <;> decide, next_of_nextIs (by decide), inv_busy, next_of_nextIs (by decide)⟩

theorem witness_InvariantStatesNeverStop :
    BlockInv (idleWith 42 7 60491) ∧ BlockInv { busyWith 5#4 42 7 60491 with ctrl := { strict := true } } :=
  ⟨inv_idle, inv_busy_modpow⟩

/-- A reachable busy state, and a state with no command accepted since a reset. -/
theorem witness_ReachableStatesMeetTheSpecInvariants :
    Reachable (busyWith 1#4 0 0 0) ∧ (busyWith 1#4 0 0 0).status.busy = true ∧
    NoAcceptSinceReset { idleWith 0 0 0 with status := { Status.zero with err := true, ecode := 2#2 } } :=
  ⟨.step (.reset { width := 64 } [.hostWrite 2 0x01] rfl (by decide)) (next_of_nextIs (by decide)), rfl,
    .step (s := thenTurns State.reset [.hostWrite 2 0x05])
      (by have h := NoAcceptSinceReset.reset (thenTurns State.reset [.hostWrite 2 0x05])
          exact h)
      (next_of_nextIs (by decide)) rfl⟩

/-- A write to each operand and to CTRL that changes it, and an issue. -/
theorem witness_OperandsChangeOnlyByHostWriteOrReset :
    step (thenTurns (idleWith 1 2 3) [.hostWrite 4 9]) = .next (idleWith 9 2 3) ∧
    step (thenTurns (idleWith 1 2 3) [.hostWrite 5 9]) = .next (idleWith 1 9 3) ∧
    step (thenTurns (idleWith 1 2 3) [.hostWrite 6 9]) = .next (idleWith 1 2 9) ∧
    step (thenTurns (idleWith 1 2 3) [.hostWrite 0 9]) = .next { idleWith 1 2 3 with ctrl := { strict := true } } ∧
    step (thenTurns (idleWith 1 2 3) [.hostWrite 2 2]) = .next (busyWith 2#4 1 2 3) :=
  ⟨next_of_nextIs (by decide), next_of_nextIs (by decide), next_of_nextIs (by decide), next_of_nextIs (by decide),
    next_of_nextIs (by decide)⟩

/-- The three steps that change a result register. -/
theorem witness_ResultsChangeOnlyByIssueCompletionReset :
    step (thenTurns { idleWith 5 0 0 with res0 := 1 } [.hostWrite 2 0x01]) = .next (busyWith 1#4 5 0 0) ∧
    step (busyWith 1#4 5 0 0) =
      .next { idleWith 5 0 0 with res0 := 1, status := { Status.zero with done := true } } ∧
    step (thenTurns { idleWith 5 0 0 with res1 := 1 } [.reset]) = .next State.reset :=
  ⟨next_of_nextIs (by decide), next_of_nextIs (by decide), next_of_nextIs (by decide)⟩

/-- A dropped write, after which the command is still in flight, and the completion. -/
theorem witness_BusyFreezesTheOperands :
    (busyWith 1#4 251 0 0).status.busy = true ∧ step (thenTurns (busyWith 1#4 251 0 0) [.hostWrite 4 9]) =
      .next { busyWith 1#4 251 0 0 with status := { Status.zero with busy := true, busyErr := true } } ∧
    step (busyWith 1#4 5 0 0) =
      .next { idleWith 5 0 0 with res0 := 1, status := { Status.zero with done := true } } ∧
    (busyWith 1#4 5 0 0).turns ≠ [.reset] :=
  ⟨by decide, next_of_nextIs (by decide), next_of_nextIs (by decide), by decide⟩

theorem witness_ResultsDoNotDependOnTiming :
    let ts : List Turn := [.hostRead 1, .hostWrite 4 9, .hostWrite 3 3]
    let s := thenTurns (busyWith 3#4 60000 7 0) (ts ++ [.engine, .hostRead 8])
    BlockInv s ∧ s.status.busy = true ∧ s.turns = ts ++ .engine :: [.hostRead 8] ∧
    (∀ t ∈ ts, t.isTransaction = true) :=
  ⟨{ inv_busy with turns := by decide }, by decide, by decide, by decide⟩

theorem witness_EveryRunEndsIdle :
    BlockInv (thenTurns (busyWith 3#4 60000 7 0) [.hostRead 1, .hostWrite 4 9]) := { inv_busy with turns := by decide }

/-- The scenario's encryption in strict mode, with two reads of STATUS before the completion; ENCRYPT and DECRYPT expand
alike. -/
theorem witness_EncryptAndDecryptComputeThePower :
    let s := thenTurns { idleWith 42 7 60491 with ctrl := { strict := true } }
      (turnsOf 2 (Pseudo.encrypt 42 7 60491).expand ++ [.hostRead 8])
    BlockInv s ∧ s.status.busy = false ∧ s.turns = turnsOf 2 (Pseudo.encrypt 42 7 60491).expand ++ [.hostRead 8] ∧
    s.turns = turnsOf 2 (Pseudo.decrypt 42 7 60491).expand ++ [.hostRead 8] ∧
    60491 ≠ 0 ∧ s.ctrl.strict = true ∧ 42 < 60491 :=
  ⟨{ inv_idle_strict with turns := by decide }, by decide, by decide, by decide, by decide, by decide, by decide⟩

/-- The scenario's key derivation, with no read of STATUS before the completion. -/
theorem witness_DerivedComputesTheExponent :
    let s := thenTurns (idleWith 42 7 60491) (turnsOf 0 (Pseudo.derived 7 60000).expand)
    BlockInv s ∧ s.status.busy = false ∧ s.turns = turnsOf 0 (Pseudo.derived 7 60000).expand ++ [] ∧
    euclidGcd 7 60000 = 1 ∧ 2 ≤ 60000 :=
  ⟨{ inv_idle with turns := by decide }, by decide, by decide, by decide, by decide⟩

/-- The scenario's key pair (95_test_vectors.md S1), in strict mode; and a message above `n` in the reference mode. -/
theorem witness_DecryptRecoversTheMessage :
    Nat.Prime 251 ∧ Nat.Prime 241 ∧ 251 ≠ 241 ∧ 7 * 17143 ≡ 1 [MOD (251 - 1) * (241 - 1)] ∧
    ({ strict := true } : Ctrl).strict = true ∧ 42 < 251 * 241 ∧ (idleWith 0 0 0).status.busy = false ∧
    (idleWith 0 0 0).ctrl.strict = false ∧ 251 * 241 ≤ 60492 :=
  ⟨by norm_num, by norm_num, by decide, by decide, by decide, by decide, by decide, by decide, by decide⟩

/-- A faulted and an accepted word. -/
theorem witness_ExactlyOneOfErrAndDone :
    (∀ v ∈ [0x00, 0x05], (thenTurns (idleWith 42 7 60491) [.hostWrite 2 v, .engine]).turns =
      .hostWrite 2 v :: .engine :: []) ∧
    BlockInv (thenTurns (idleWith 42 7 60491) [.hostWrite 2 0x00, .engine]) ∧
    BlockInv (thenTurns (idleWith 42 7 60491) [.hostWrite 2 0x05, .engine]) ∧
    (idleWith 42 7 60491).status.busy = false :=
  ⟨by decide, { inv_idle with turns := by decide }, { inv_idle with turns := by decide }, by decide⟩

/-- The state after vector X7, with a read, an operand write and a write to a read-only index to come. -/
theorem witness_CommittedResultsStay :
    let s := thenTurns { idleWith 3 40 0 with
        res0 := 1, res1 := 13, res2 := 1, status := { Status.zero with done := true, xNeg := true } }
      [.hostRead 8, .hostWrite 4 9, .hostWrite 1 0]
    BlockInv s ∧ s.status.done = true ∧ (∀ t ∈ s.turns, t.writesCmd = false ∧ t ≠ .reset) :=
  ⟨by constructor <;> decide, by decide, by decide⟩

/-- A state for each stop: the width, the value, a PEND that is no command (0 and 6), a modulus of 0 at completion. -/
theorem witness_TheMachineStopsExactlyHere :
    Config.wf { width := 7 } = false ∧
    (Config.wf { width := 8 } = true ∧ 2 ^ 8 ≤ 256) ∧
    (∀ op ∈ [0#4, 6#4], (busyWith op 1 1 1).cfg.wf = true ∧ (busyWith op 1 1 1).status.busy = true ∧
      (busyWith op 1 1 1).turns = [] ∧ (busyWith op 1 1 1).pend ∉ [1#4, 2#4, 3#4, 4#4, 5#4]) ∧
    ((busyWith 5#4 1 1 0).cfg.wf = true ∧ (busyWith 5#4 1 1 0).status.busy = true ∧ (busyWith 5#4 1 1 0).turns = [] ∧
      (busyWith 5#4 1 1 0).pend = 5#4 ∧ (busyWith 5#4 1 1 0).opc = 0) := by decide

end Sys2Proof.Tests
end

section
/-! SUPPORT. The engine's turn as a step, and what a width that is not legal does: the scope of a step (00_scope.md R12). -/

namespace Sys2Proof.Machine

/-- A width that is no legal configuration is refused, whatever is to come (93_implementation_defined.md part 2 item 9). -/
theorem step_illegalWidth {s : State} (illegal : s.cfg.wf = false) : step s = .refused .illegalWidth := by
  simp [step, illegal]

/-- An idle engine has no step to take (00_scope.md R12). -/
theorem engineTurn_idle {s : State} (idle : s.status.busy = false) : engineTurn s = .next s := by
  simp [engineTurn, idle]

/-- The engine's turn at the head of the list, as a step (30_encoding.md R56). -/
theorem step_engine {s : State} {rest : List Turn} (legal : s.cfg.wf = true) (ht : s.turns = .engine :: rest) :
    step s = engineTurn (s.withTurns rest) :=
  step_cons legal ht

/-- An empty list of turns and the list of one engine's turn give the same step, at every width. -/
theorem step_nil_eq_step_engine {s : State} (ht : s.turns = []) : step s = step (s.withTurns [.engine]) := by
  cases legal : s.cfg.wf with
  | false => rw [step_illegalWidth legal, step_illegalWidth (s := s.withTurns [.engine]) legal]
  | true =>
    have emptied : (s.withTurns [.engine]).withTurns [] = s := ht ▸ s.withTurns_self
    rw [step_nil legal ht, step_engine (s := s.withTurns [.engine]) legal rfl, emptied]

/-- Settles O28: the list of one engine's turn is the empty list after it, and an idle engine's turn changes nothing. -/
theorem engineMovesWhenTheHostIsDone : Obligations.EngineMovesWhenTheHostIsDone := by
  intro s ht
  refine ⟨step_nil_eq_step_engine ht, fun legal idle => ?_⟩
  rw [step_nil legal ht, engineTurn_idle idle]

end Sys2Proof.Machine
end

section
/-! SUPPORT. `egcd` by its recursion (41_gcd.md R72, R76): the divisor, the Bézout equation, and how large the
coefficients are. -/

namespace Sys2Proof.Machine

/-- The base case of the recursion (R72). -/
@[simp] theorem egcd_zero (b : Nat) : egcd 0 b = (b, 0, 1) := rfl

/-- What `egcd` answers first is the greatest common divisor (R76). -/
@[simp] theorem egcd_fst (a b : Nat) : (egcd a b).1 = Nat.gcd a b := by
  induction a, b using Nat.gcd.induction with
  | H0 b => simp
  | H1 a b ha ih => rw [egcd_pos ha, Nat.gcd_rec, ih]

/-- The Bézout equation (R76). -/
theorem egcd_bezout (a b : Nat) : (a : Int) * (egcd a b).2.1 + b * (egcd a b).2.2 = Nat.gcd a b := by
  induction a, b using Nat.gcd.induction with
  | H0 b => simp
  | H1 a b ha ih =>
    have division : (b : Int) = a * (b / a : Nat) + (b % a : Nat) := by exact_mod_cast (Nat.div_add_mod b a).symm
    rw [egcd_pos ha, Nat.gcd_rec, ← ih]
    linear_combination division * (egcd (b % a) a).2.1

/-- The coefficients are no larger than the other operand over the divisor, except that a coefficient of 1 is always
possible (R76). -/
theorem egcd_natAbs_le (a b : Nat) :
    (egcd a b).2.1.natAbs ≤ max 1 (b / Nat.gcd a b) ∧ (egcd a b).2.2.natAbs ≤ max 1 (a / Nat.gcd a b) := by
  induction a, b using Nat.gcd.induction with
  | H0 b => simp
  | H1 a b ha ih =>
    obtain ⟨ihx, ihy⟩ := ih
    rw [← Nat.gcd_rec] at ihx ihy
    rw [egcd_pos ha]
    refine ⟨?_, ihx⟩
    obtain hc | hc := Nat.eq_zero_or_pos (b % a)
    · simp [hc]
    · have hg : 0 < Nat.gcd a b := Nat.gcd_pos_of_pos_left b ha
      have hdvd : Nat.gcd a b ∣ a := Nat.gcd_dvd_left a b
      have hx : (egcd (b % a) a).2.1.natAbs ≤ a / Nat.gcd a b := by
        rwa [max_eq_right (Nat.div_pos (Nat.le_of_dvd ha hdvd) hg)] at ihx
      have hy : (egcd (b % a) a).2.2.natAbs ≤ b % a / Nat.gcd a b := by
        have hdvd' : Nat.gcd a b ∣ b % a := (Nat.dvd_mod_iff hdvd).mpr (Nat.gcd_dvd_right a b)
        rwa [max_eq_right (Nat.div_pos (Nat.le_of_dvd hc hdvd') hg)] at ihy
      have split : b / Nat.gcd a b = b % a / Nat.gcd a b + b / a * (a / Nat.gcd a b) := by
        rw [← Nat.mul_div_assoc _ hdvd, ← Nat.add_div_of_dvd_left (Dvd.dvd.mul_left hdvd _), Nat.mod_add_div']
      calc ((egcd (b % a) a).2.2 - ((b / a : Nat) : Int) * (egcd (b % a) a).2.1).natAbs
          ≤ (egcd (b % a) a).2.2.natAbs + b / a * (egcd (b % a) a).2.1.natAbs :=
            (Int.natAbs_sub_le _ _).trans_eq (by rw [Int.natAbs_mul, Int.natAbs_natCast])
        _ ≤ b % a / Nat.gcd a b + b / a * (a / Nat.gcd a b) := Nat.add_le_add hy (Nat.mul_le_mul_left _ hx)
        _ ≤ max 1 (b / Nat.gcd a b) := split ▸ le_max_right _ _

/-- The coefficients are never both negative: the divisor is not (R76). -/
theorem egcd_not_both_neg (a b : Nat) : ¬ ((egcd a b).2.1 < 0 ∧ (egcd a b).2.2 < 0) := by
  rintro ⟨hx, hy⟩
  obtain rfl | ha := Nat.eq_zero_or_pos a
  · simp at hx
  · have bezout := egcd_bezout a b
    have : (a : Int) * (egcd a b).2.1 < 0 := mul_neg_of_pos_of_neg (by exact_mod_cast ha) hx
    have : (b : Int) * (egcd a b).2.2 ≤ 0 := mul_nonpos_of_nonneg_of_nonpos (by positivity) hy.le
    omega

/-- Both coefficients fit a register in which both operands fit (R76; 00_scope.md R8). -/
theorem egcd_fits {W a b : Nat} (hW : 0 < W) (ha : Fits W a) (hb : Fits W b) :
    Fits W (egcd a b).2.1.natAbs ∧ Fits W (egcd a b).2.2.natAbs := by
  obtain ⟨hx, hy⟩ := egcd_natAbs_le a b
  have one : Fits W 1 := Nat.one_lt_two_pow hW.ne'
  exact ⟨hx.trans_lt (max_lt one ((Nat.div_le_self _ _).trans_lt hb)),
    hy.trans_lt (max_lt one ((Nat.div_le_self _ _).trans_lt ha))⟩

end Sys2Proof.Machine
end

section
/-! SUPPORT. What a completion writes: that it fits, and where a sign flag is set (10_state.md R23, R29 item 6). -/

namespace Sys2Proof.Machine

/-- What every command's results meet: they fit `W` bits, and a sign flag of 1 goes with a magnitude other than 0. -/
structure Results.Sound (W : Nat) (r : Results) : Prop where
  res0 : Fits W r.res0
  res1 : Fits W r.res1
  res2 : Fits W r.res2
  xNeg : r.xNeg = true → r.res1 ≠ 0
  yNeg : r.yNeg = true → r.res2 ≠ 0

/-- A negative coefficient has a magnitude other than 0 (R23). -/
theorem magnitude_ne_zero {x : Int} (h : signFlag x = true) : magnitude x ≠ 0 := by
  have : x < 0 := by simpa [signFlag] using h
  simpa [magnitude] using this.ne

/-- A coefficient whose magnitude is 0 has flag 0 (R23). -/
theorem signFlag_of_magnitude_eq_zero {x : Int} (h : magnitude x = 0) : signFlag x = false :=
  Bool.eq_false_iff.mpr fun hs => magnitude_ne_zero hs h

/-- Magnitude and flag give the coefficient back (R23). -/
@[simp] theorem signedValue_signFlag_magnitude (x : Int) : signedValue (signFlag x) (magnitude x) = x := by
  obtain h | h := lt_or_ge x 0
  · simp [signedValue, signFlag, magnitude, h, abs_of_neg]
  · simp [signedValue, signFlag, magnitude, h.not_gt, abs_of_nonneg h]

/-- The divisor fits where both operands fit. -/
theorem gcd_fits {W a b : Nat} (ha : Fits W a) (hb : Fits W b) : Fits W (Nat.gcd a b) := by
  obtain rfl | h := Nat.eq_zero_or_pos a
  · simpa using hb
  · exact (Nat.gcd_le_left b h).trans_lt ha

/-- One conditional addition of `b` leaves no more than the larger of the coefficient and `b` (41_gcd.md R75). -/
theorem normalise_toNat_le (x : Int) (b : Nat) : (normalise x b).toNat ≤ max x.natAbs b := by
  unfold normalise
  split <;> omega

/-- A command that returns one number sets no flag (R31). -/
theorem Results.single_sound {W v : Nat} (h : Fits W v) : (Results.single v).Sound W where
  res0 := h
  res1 := Nat.two_pow_pos W
  res2 := Nat.two_pow_pos W
  xNeg := by simp [Results.single]
  yNeg := by simp [Results.single]

/-- What XGCD writes is sound (41_gcd.md R74, R76). -/
theorem xgcdResults_sound {W a b : Nat} (hW : 0 < W) (ha : Fits W a) (hb : Fits W b) :
    (xgcdResults a b).Sound W where
  res0 := by simpa [xgcdResults] using gcd_fits ha hb
  res1 := (egcd_fits hW ha hb).1
  res2 := (egcd_fits hW ha hb).2
  xNeg := magnitude_ne_zero
  yNeg := magnitude_ne_zero

/-- What XGCDN writes is sound (41_gcd.md R75, R76). -/
theorem xgcdnResults_sound {W a b : Nat} (hW : 0 < W) (ha : Fits W a) (hb : Fits W b) :
    (xgcdnResults a b).Sound W where
  res0 := by simpa [xgcdnResults] using gcd_fits ha hb
  res1 := (normalise_toNat_le _ b).trans_lt (max_lt (egcd_fits hW ha hb).1 hb)
  res2 := (egcd_fits hW ha hb).2
  xNeg := by simp [xgcdnResults]
  yNeg := magnitude_ne_zero

/-- What every command writes is sound, where the operands fit and MODPOW has a modulus (10_state.md R29 item 6). -/
theorem resultsOf_sound {W : Nat} {s : State} (i : Instr) (hW : 0 < W) (opa : Fits W s.opa) (opb : Fits W s.opb)
    (opc : Fits W s.opc) (modulus : i = .modpow → s.opc ≠ 0) : (resultsOf i s).Sound W := by
  cases i with
  | isprime =>
    refine Results.single_sound ?_
    have one : 1 < 2 ^ W := Nat.one_lt_two_pow hW.ne'
    split <;> omega
  | gcd => exact Results.single_sound (euclidGcd_eq s.opa s.opb ▸ gcd_fits opa opb)
  | xgcd => exact xgcdResults_sound hW opa opb
  | xgcdn => exact xgcdnResults_sound hW opa opb
  | modpow => exact Results.single_sound ((Nat.mod_lt _ (Nat.pos_of_ne_zero (modulus rfl))).trans opc)

end Sys2Proof.Machine
end

section
/-! SUPPORT. The invariant of the block (10_state.md R29) under each operation on the state, and under a step. -/

namespace Sys2Proof.Machine

variable {s s' : State}

/-- After reset the invariant holds, whatever the host does next and has read (10_state.md R29, R30). -/
theorem blockInv_resetWith {c : Config} {ts : List Turn} {vs : List Nat} (legal : c.wf = true)
    (expressible : ∀ t ∈ ts, t.wf c = true) (fit : ∀ v ∈ vs, Fits c.width v) :
    BlockInv { State.resetWith c with turns := ts, returned := vs } where
  width := of_decide_eq_true legal
  opa := Nat.two_pow_pos _
  opb := Nat.two_pow_pos _
  opc := Nat.two_pow_pos _
  res0 := Nat.two_pow_pos _
  res1 := Nat.two_pow_pos _
  res2 := Nat.two_pow_pos _
  turns := expressible
  returned := fit
  inFlight := nofun
  idle _ := rfl
  errCode := by simp [State.resetWith, Status.zero]
  faulted := nofun
  done := nofun
  xNeg := nofun
  yNeg := nofun
  busyErr := nofun
  modulus := nofun

/-- A byte zero-extends to a value of the port at every legal width (20_memory.md R35, R37). -/
theorem byte_fits {c : Config} (legal : c.wf = true) (b : Byte) : Fits c.width b.toNat :=
  b.isLt.trans_le (Nat.pow_le_pow_right (by decide) (of_decide_eq_true legal))

/-- What a read returns fits the port (20_memory.md R35, R37). -/
theorem BlockInv.readPort_fits (h : BlockInv s) (r : PortReg) : Fits s.cfg.width (readPort r s) := by
  cases r with
  | ctrl | status => exact byte_fits h.legal _
  | cmd | reserved => exact Nat.two_pow_pos _
  | opa => exact h.opa
  | opb => exact h.opb
  | opc => exact h.opc
  | res0 => exact h.res0
  | res1 => exact h.res1
  | res2 => exact h.res2

/-- Taking a turn off the list keeps the invariant. -/
theorem BlockInv.withTurns (h : BlockInv s) {ts : List Turn} (expressible : ∀ t ∈ ts, t.wf s.cfg = true) :
    BlockInv (s.withTurns ts) :=
  { h with turns := expressible }

/-- An idle block has no MODPOW in flight, so nothing is asked of its modulus (R29 items 2 and 8). -/
theorem BlockInv.pend_ne_modpow (h : BlockInv s) (idle : s.status.busy = false) : s.pend ≠ 5#4 := by
  rw [h.idle idle]
  decide

/-- MODPOW is accepted exactly when it has a modulus and, with STRICT, a base below it (42_modpow.md R82). -/
theorem modpowCause_eq_none {strict : Bool} {base modulus : Nat} :
    modpowCause strict base modulus = none ↔ modulus ≠ 0 ∧ (strict = true → base < modulus) := by
  unfold modpowCause
  split
  · simp_all
  · split <;> simp_all

theorem BlockInv.resetStep (h : BlockInv s) : BlockInv s.resetStep :=
  blockInv_resetWith h.legal h.turns h.returned

theorem BlockInv.hostRead (h : BlockInv s) (r : PortReg) : BlockInv (s.returnToHost (readPort r s)) :=
  { h with returned := List.forall_mem_cons.mpr ⟨h.readPort_fits r, h.returned⟩ }

theorem BlockInv.dropWrite (h : BlockInv s) (busy : s.status.busy = true) : BlockInv s.dropWrite :=
  { h with busyErr := fun _ => .inl busy }

theorem BlockInv.setOpb (h : BlockInv s) {v : Nat} (fits : Fits s.cfg.width v) : BlockInv (s.setOpb v) :=
  { h with opb := fits }

/-- An accept puts a command in flight, and MODPOW only with a modulus its base is legal for (R29 items 1 and 8). -/
theorem BlockInv.accept (h : BlockInv s) {i : Instr} (noFault : causeOf i s = none) :
    BlockInv (s.clearForIssue.accept (opcodeOf i)) :=
  { h with
    res0 := Nat.two_pow_pos _
    res1 := Nat.two_pow_pos _
    res2 := Nat.two_pow_pos _
    inFlight := by cases i <;> simp [opcodeOf]
    idle := nofun
    errCode := by simp
    faulted := nofun
    done := nofun
    xNeg := nofun
    yNeg := nofun
    busyErr := nofun
    modulus := fun hp => by
      obtain rfl : i = .modpow := opcodeOf_injective hp
      exact modpowCause_eq_none.mp noFault }

section
variable (h : BlockInv s) (idle : s.status.busy = false)
include h idle

theorem BlockInv.setOpa {v : Nat} (fits : Fits s.cfg.width v) : BlockInv (s.setOpa v) :=
  { h with opa := fits, modulus := fun hp => absurd hp (h.pend_ne_modpow idle) }

theorem BlockInv.setOpc {v : Nat} (fits : Fits s.cfg.width v) : BlockInv (s.setOpc v) :=
  { h with opc := fits, modulus := fun hp => absurd hp (h.pend_ne_modpow idle) }

theorem BlockInv.setCtrl (v : Nat) : BlockInv (s.setCtrl v) :=
  { h with modulus := fun hp => absurd hp (h.pend_ne_modpow idle) }

/-- A fault leaves the block idle, with the results cleared and a code other than 0 (R29 items 3 and 4). -/
theorem BlockInv.faultEntry (f : Cause) : BlockInv (s.faultEntry f) :=
  { h with
    res0 := Nat.two_pow_pos _
    res1 := Nat.two_pow_pos _
    res2 := Nat.two_pow_pos _
    inFlight := by simp [idle]
    errCode := by cases f <;> simp [causeCode]
    faulted := by simp [idle]
    done := nofun
    xNeg := nofun
    yNeg := nofun
    busyErr := nofun }

/-- Every issue of an idle block keeps the invariant. -/
theorem BlockInv.issue (i : Instr) : BlockInv (s.issue (opcodeOf i) (causeOf i s)) := by
  cases hf : causeOf i s with
  | none => exact h.accept hf
  | some f => exact h.faultEntry idle f

end

/-- A completion keeps the invariant: what the command writes is sound. -/
theorem BlockInv.commit (h : BlockInv s) (busy : s.status.busy = true) {i : Instr}
    (modulus : i = .modpow → s.opc ≠ 0) : BlockInv (s.commit (resultsOf i s)) := by
  have sound := resultsOf_sound i (by have := h.width; omega) h.opa h.opb h.opc modulus
  obtain ⟨-, noErr, -⟩ := h.inFlight busy
  exact { h with
    res0 := sound.res0
    res1 := sound.res1
    res2 := sound.res2
    inFlight := nofun
    idle := fun _ => rfl
    faulted := by simp [noErr]
    done := by simp [noErr]
    xNeg := fun hx => ⟨rfl, sound.xNeg hx⟩
    yNeg := fun hy => ⟨rfl, sound.yNeg hy⟩
    busyErr := fun _ => .inr rfl
    modulus := nofun }

/-- Every turn keeps the invariant. -/
theorem Move.keeps_blockInv {t : Turn} (m : Move t s s') (h : BlockInv s) : BlockInv s' := by
  cases m with
  | reset => exact h.resetStep
  | read i => exact h.hostRead _
  | ignored => exact h
  | dropped i v _ guarded busy => exact h.dropWrite busy
  | storeOpa v _ fits idle => exact h.setOpa idle fits
  | storeOpb v _ fits idle => exact h.setOpb fits
  | storeOpc v _ fits idle => exact h.setOpc idle fits
  | storeCtrl v _ idle => exact h.setCtrl idle v
  | illegal v r _ idle word => exact h.faultEntry idle _
  | issued i v _ idle word => exact h.issue idle i
  | completed i _ busy pending modulus => exact h.commit busy modulus
  | noStep => exact h

/-- Every step keeps the invariant. -/
theorem BlockInv.step (h : BlockInv s) (taken : step s = .next s') : BlockInv s' := by
  obtain ⟨-, t, rest, ht, m⟩ := step_moves taken
  refine m.keeps_blockInv (h.withTurns fun u hu => ?_)
  obtain ht | ⟨-, -, rfl⟩ := ht
  · exact h.turns u (by simp [ht, hu])
  · simp at hu

/-- Settles O39: every turn keeps the invariant, operation by operation, and a step is a turn taken off the list. -/
theorem everyStepKeepsTheInvariant : Obligations.EveryStepKeepsTheInvariant :=
  fun _ _ h taken => h.step taken

/-- Settles O38: with nothing to come and nothing read. -/
theorem invariantHoldsAtReset : Obligations.InvariantHoldsAtReset :=
  ⟨fun _ legal => blockInv_resetWith legal (by simp) (by simp), blockInv_resetWith rfl (by simp) (by simp)⟩

end Sys2Proof.Machine
end

section
/-! SUPPORT. What a command reads and writes at its completion (10_state.md R23, R31), and the statements of it. -/

namespace Sys2Proof.Machine

/-- Only XGCD sets XNEG (R23). -/
theorem resultsOf_xNeg {i : Instr} {s : State} (h : (resultsOf i s).xNeg = true) : i = .xgcd := by
  cases i with
  | xgcd => rfl
  | isprime | gcd | xgcdn | modpow => cases h

/-- Only XGCD and XGCDN set YNEG (R23). -/
theorem resultsOf_yNeg {i : Instr} {s : State} (h : (resultsOf i s).yNeg = true) : i = .xgcd ∨ i = .xgcdn := by
  cases i with
  | xgcd => exact .inl rfl
  | xgcdn => exact .inr rfl
  | isprime | gcd | modpow => cases h

/-- The results are a function of the registers the command reads (R31). -/
theorem resultsOf_congr {i : Instr} {s u : State} (opa : s.opa = u.opa) (opb : i ≠ .isprime → s.opb = u.opb)
    (opc : i = .modpow → s.opc = u.opc) : resultsOf i s = resultsOf i u := by
  cases i with
  | isprime => rw [resultsOf, resultsOf, opa]
  | gcd | xgcd | xgcdn => rw [resultsOf, resultsOf, opa, opb nofun]
  | modpow => rw [resultsOf, resultsOf, opa, opb nofun, opc rfl]

/-- Settles O22: magnitude and flag give back the coefficients of `egcd`, which meet the equation. -/
theorem xgcdRegistersSatisfyBezout : Obligations.XgcdRegistersSatisfyBezout := by
  intro s busy
  refine ⟨_, exec_busy .xgcd busy nofun, ?_, ?_, ?_, ?_, ?_⟩
  · simpa [resultsOf, xgcdResults] using egcd_bezout s.opa s.opb
  · simp [resultsOf, xgcdResults, euclidGcd_eq]
  · simpa [resultsOf, xgcdResults, signFlag] using egcd_not_both_neg s.opa s.opb
  · exact signFlag_of_magnitude_eq_zero
  · exact signFlag_of_magnitude_eq_zero

/-- Settles O25: a busy block commits the results, and they depend on the registers read alone. -/
theorem unreadRegistersAreIgnored : Obligations.UnreadRegistersAreIgnored := by
  intro i s u hs hu opa opb opc
  have results := resultsOf_congr opa opb fun hi => (opc hi).1
  refine ⟨_, _, exec_busy i hs fun hi => (opc hi).2, exec_busy i hu fun hi => (opc hi).1 ▸ (opc hi).2, ?_⟩
  simp [results]

end Sys2Proof.Machine
end

section
/-! SUPPORT. That a state which meets the invariant has a step (10_state.md R29, 70_reset_and_hazards.md R114). -/

namespace Sys2Proof.Machine

variable {s : State}

/-- A word written to an idle block always has an outcome: an accept or a fault entry (30_encoding.md R54). -/
theorem issueWord_answers (c : Byte) (idle : s.status.busy = false) : ∃ s', issueWord c s = .next s' := by
  unfold issueWord
  split
  · exact ⟨_, exec_idle _ idle⟩
  · exact ⟨_, rfl⟩

/-- A guarded write has an outcome where it has one in an idle block (20_memory.md R40). -/
theorem whenIdle_answers {perform : Host.Outcome State Fault Refusal}
    (h : s.status.busy = false → ∃ s', perform = .next s') : ∃ s', whenIdle perform s = .next s' := by
  cases hb : s.status.busy with
  | true => exact ⟨s.dropWrite, by simp [whenIdle, hb]⟩
  | false => simpa [whenIdle, hb] using h hb

/-- Every host write has an outcome (20_memory.md R40). -/
theorem hostWrite_answers (i : Index) (v : Nat) (s : State) : ∃ s', hostWrite i v s = .next s' := by
  unfold hostWrite
  cases portReg i with
  | status | res0 | res1 | res2 | reserved => exact ⟨s, rfl⟩
  | opa | opb | opc | ctrl => exact whenIdle_answers fun _ => ⟨_, rfl⟩
  | cmd => exact whenIdle_answers (issueWord_answers (commandWord v))

/-- The engine's turn has an outcome: PEND names a command, and MODPOW has a modulus (R29 items 1 and 8). -/
theorem BlockInv.engineTurn_answers (h : BlockInv s) : ∃ s', engineTurn s = .next s' := by
  cases busy : s.status.busy with
  | false => exact ⟨s, engineTurn_idle busy⟩
  | true =>
    obtain ⟨-, -, -, -, -, -, -, -, pend⟩ := h.inFlight busy
    obtain ⟨i, hi⟩ : ∃ i, commandOf s.pend = some i :=
      Option.ne_none_iff_exists'.mp fun hn => commandOf_eq_none.mp hn pend
    have modulus : i = .modpow → s.opc ≠ 0 := by
      rintro rfl
      exact (h.modulus (commandOf_eq_some.mp hi)).1
    exact ⟨s.commit (resultsOf i s), by simp [engineTurn, complete, busy, hi, exec_busy i busy modulus]⟩

/-- Settles O40: whichever turn is next, it has an outcome. -/
theorem invariantStatesNeverStop : Obligations.InvariantStatesNeverStop := by
  intro s h
  cases ht : s.turns with
  | nil => exact step_nil h.legal ht ▸ h.engineTurn_answers
  | cons t rest =>
    have hrest : BlockInv (s.withTurns rest) := h.withTurns fun u hu => h.turns u (by simp [ht, hu])
    cases t with
    | reset => exact ⟨_, step_cons h.legal ht⟩
    | hostRead i => exact ⟨_, step_cons h.legal ht⟩
    | hostWrite i v => exact step_write h.legal ht (h.fits ht) ▸ hostWrite_answers i v _
    | engine => exact step_engine h.legal ht ▸ hrest.engineTurn_answers

end Sys2Proof.Machine
end

section
/-! SUPPORT. What a step does to STATUS, the results and PEND (10_state.md R17, R20 to R25, R27), said once, and the
statements that follow from it. -/

namespace Sys2Proof.Machine

variable {s s' : State}

/-- The next step is an issue: a write to CMD while idle (30_encoding.md R54). -/
def IssueNext (s : State) : Prop := ∃ v rest, s.turns = .hostWrite 2 v :: rest ∧ s.status.busy = false

/-- The next step is a completion: the engine's turn while busy (30_encoding.md R56). -/
def CompletionNext (s : State) : Prop := s.status.busy = true ∧ (s.turns = [] ∨ ∃ rest, s.turns = .engine :: rest)

/-- The next step is a reset (70_reset_and_hazards.md R105). -/
def ResetNext (s : State) : Prop := ∃ rest, s.turns = .reset :: rest

/-- The next step is a write that BUSY drops (20_memory.md R40). -/
def DropNext (s : State) : Prop :=
  s.status.busy = true ∧ ∃ t rest, s.turns = t :: rest ∧ t.writesGuarded = true

/-- Two states show the same STATUS and results and hold the same PEND. -/
structure SameOutput (s t : State) : Prop where
  status : s.status = t.status
  res0 : s.res0 = t.res0
  res1 : s.res1 = t.res1
  res2 : s.res2 = t.res2
  pend : s.pend = t.pend

/-- What a step does to STATUS, the results and PEND: nothing, unless it is a reset, a dropped write, an issue or a
completion. -/
inductive OutputMove (s s' : State) : Prop where
  | kept (out : SameOutput s' s)
  | reset (now : ResetNext s) (out : SameOutput s' s.resetStep)
  | dropped (now : DropNext s) (out : SameOutput s' s.dropWrite)
  | faulted (now : IssueNext s) (f : Cause) (out : SameOutput s' (s.faultEntry f))
  | accepted (now : IssueNext s) (i : Instr) (out : SameOutput s' (s.clearForIssue.accept (opcodeOf i)))
  | completed (now : CompletionNext s) (i : Instr) (pending : s.pend = opcodeOf i)
      (out : SameOutput s' (s.commit (resultsOf i s)))

/-- Every step is one of these. -/
theorem step_outputMove (taken : step s = .next s') : OutputMove s s' := by
  obtain ⟨-, t, rest, ht, m⟩ := step_moves taken
  have head (h : t ≠ .engine) : s.turns = t :: rest := ht.resolve_right fun ⟨_, he, _⟩ => h he
  cases m with
  | read | ignored | storeOpa | storeOpb | storeOpc | storeCtrl | noStep => exact .kept ⟨rfl, rfl, rfl, rfl, rfl⟩
  | reset => exact .reset ⟨rest, head nofun⟩ ⟨rfl, rfl, rfl, rfl, rfl⟩
  | dropped i v _ guarded busy =>
    exact .dropped ⟨busy, _, rest, head nofun, decide_eq_true guarded⟩ ⟨rfl, rfl, rfl, rfl, rfl⟩
  | illegal v r _ idle => exact .faulted ⟨v, rest, head nofun, idle⟩ .illegalCommand ⟨rfl, rfl, rfl, rfl, rfl⟩
  | issued i v _ idle =>
    have issue : IssueNext s := ⟨v, rest, head nofun, idle⟩
    cases causeOf i (s.withTurns rest) with
    | some f => exact .faulted issue f ⟨rfl, rfl, rfl, rfl, rfl⟩
    | none => exact .accepted issue i ⟨rfl, rfl, rfl, rfl, rfl⟩
  | completed i _ busy pending =>
    have completion : CompletionNext s := ⟨busy, ht.symm.imp (·.1) fun h => ⟨rest, h⟩⟩
    exact .completed completion i pending ⟨rfl, rfl, rfl, rfl, rfl⟩

/-- The layout of STATUS (R20): each field at its bit. -/
theorem statusWord_toNat (st : Status) :
    (statusWord st).toNat = st.busy.toNat + 2 * st.done.toNat + 4 * st.err.toNat + 8 * st.busyErr.toNat +
      16 * st.xNeg.toNat + 32 * st.yNeg.toNat + 64 * st.ecode.toNat := by
  have concat : statusWord st =
      (((((st.ecode.concat st.yNeg).concat st.xNeg).concat st.busyErr).concat st.err).concat st.done).concat st.busy :=
    rfl
  simp only [concat, BitVec.toNat_concat]
  omega

/-- Settles O33: each field of STATUS in each kind of step. -/
theorem statusRegisterRules : Obligations.StatusRegisterRules := by
  refine ⟨statusWord_toNat, fun s s' taken => ?_⟩
  intro issue completion reset dropped
  cases step_outputMove taken with
  | kept out => simp +contextual [out.status]
  | reset now out =>
    have now : reset := now
    simp +contextual [out.status, Status.zero, now]
  | dropped now out =>
    have now : dropped := now
    simp +contextual [out.status, now]
  | faulted now _ out | accepted now _ out =>
    have now : issue := now
    simp +contextual [out.status, now]
  | completed now i pending out =>
    have now : completion := now
    have xNeg (h : (resultsOf i s).xNeg = true) : s.pend = 3#4 := by
      obtain rfl := resultsOf_xNeg h
      exact pending
    have yNeg (h : (resultsOf i s).yNeg = true) : s.pend = 3#4 ∨ s.pend = 4#4 := by
      obtain rfl | rfl := resultsOf_yNeg h
      exacts [.inl pending, .inr pending]
    simpa +contextual [out.status, now, xNeg] using fun _ => yNeg

/-- Settles O43: by the kind of step. -/
theorem resultsChangeOnlyByIssueCompletionReset : Obligations.ResultsChangeOnlyByIssueCompletionReset := by
  intro s s' taken changed
  cases step_outputMove taken with
  | kept out | dropped _ out => simp [out.res0, out.res1, out.res2] at changed
  | reset now out => exact .inr (.inr ⟨now, out.res0, out.res1, out.res2⟩)
  | faulted now _ out | accepted now _ out =>
    obtain ⟨v, rest, ht, idle⟩ := now
    exact .inl ⟨idle, ⟨v, rest, ht⟩, out.res0, out.res1, out.res2⟩
  | completed now i _ out =>
    obtain ⟨busy, ht⟩ := now
    exact .inr (.inl ⟨busy, ht, congrArg Status.done out.status⟩)

/-- A turn while busy that is no reset leaves CTRL and the operands (R21; 20_memory.md R47). -/
theorem Move.operands_of_busy {t : Turn} (m : Move t s s') (busy : s.status.busy = true) (noReset : t ≠ .reset) :
    s'.opa = s.opa ∧ s'.opb = s.opb ∧ s'.opc = s.opc ∧ s'.ctrl = s.ctrl := by
  cases m with
  | reset => exact absurd rfl noReset
  | read | ignored | dropped | completed | noStep => exact ⟨rfl, rfl, rfl, rfl⟩
  | storeOpa | storeOpb | storeOpc | storeCtrl | illegal | issued =>
    exact absurd ‹s.status.busy = false› (by simp [busy])

/-- Settles O44: the operands turn by turn; PEND and the results by the kind of step, of which only a dropped write is
left. -/
theorem busyFreezesTheOperands : Obligations.BusyFreezesTheOperands := by
  intro s s' busy taken noReset
  have operands : s'.opa = s.opa ∧ s'.opb = s.opb ∧ s'.opc = s.opc ∧ s'.ctrl = s.ctrl := by
    obtain ⟨-, t, rest, ht, m⟩ := step_moves taken
    refine m.operands_of_busy busy ?_
    rintro rfl
    simp [noReset] at ht
  obtain ⟨opa, opb, opc, ctrl⟩ := operands
  refine ⟨opa, opb, opc, ctrl, fun still => ?_⟩
  cases step_outputMove taken with
  | kept out | dropped _ out => exact ⟨out.pend, out.res0, out.res1, out.res2⟩
  | reset now =>
    obtain ⟨rest, ht⟩ := now
    exact absurd ht (noReset rest)
  | faulted now | accepted now =>
    obtain ⟨_, _, -, idle⟩ := now
    simp [busy] at idle
  | completed _ i _ out => simp [out.status] at still

/-- A reachable state meets the invariant: it holds after reset, and every step keeps it. -/
theorem Reachable.blockInv (h : Reachable s) : BlockInv s := by
  induction h with
  | reset c ts legal expressible => exact blockInv_resetWith legal expressible (by simp [State.resetWith])
  | step _ taken inv => exact inv.step taken

/-- A step from an idle block that ends idle sets no BUSYERR: no write was dropped (R25). -/
theorem busyErr_of_idle (taken : step s = .next s') (idle : s.status.busy = false)
    (noAccept : s'.status.busy = false) (clear : s.status.busyErr = false) : s'.status.busyErr = false := by
  cases step_outputMove taken with
  | kept out => rw [out.status, clear]
  | reset _ out =>
    rw [out.status]
    rfl
  | dropped now | completed now =>
    obtain ⟨busy, -⟩ := now
    simp [idle] at busy
  | faulted _ f out => simp [out.status]
  | accepted _ i out => simp [out.status] at noAccept

/-- With no command accepted since reset the block is idle and BUSYERR is 0 (R29 item 7). -/
theorem NoAcceptSinceReset.idle_and_busyErr (h : NoAcceptSinceReset s) :
    s.status.busy = false ∧ s.status.busyErr = false := by
  induction h with
  | reset s => exact ⟨rfl, rfl⟩
  | step _ taken noAccept ih => exact ⟨noAccept, busyErr_of_idle taken ih.1 noAccept ih.2⟩

/-- Settles O41: items 1 to 6 and 8 are fields of the invariant, and item 7 is said of the runs it speaks of. -/
theorem reachableStatesMeetTheSpecInvariants : Obligations.ReachableStatesMeetTheSpecInvariants := by
  refine ⟨fun s reachable => ?_, fun s h => h.idle_and_busyErr.2⟩
  have inv := reachable.blockInv
  exact ⟨inv.inFlight, inv.idle, inv.errCode, inv.faulted, inv.done, inv.xNeg, inv.yNeg, inv.modulus⟩

end Sys2Proof.Machine
end

section
/-! SUPPORT. The command word withFetchWord places, and reset as the host sees it (10_state.md R18, R30). -/

namespace Sys2Proof.Machine

/-- The decoder gives the command back from its word (30_encoding.md R52). -/
@[simp] theorem decode_encode (i : Instr) : decode (encode i) = .ok i :=
  decode_eq_ok.mpr ⟨rsvField_encode i, opcodeField_encode i⟩

/-- A byte written as a number is the same byte (30_encoding.md R50). -/
@[simp] theorem commandWord_toNat (c : Byte) : commandWord c.toNat = c := by simp [commandWord]

/-- A command's word written to CMD while idle runs the command (30_encoding.md R54). -/
theorem hostWrite_encode {s : State} (i : Instr) (idle : s.status.busy = false) :
    hostWrite 2 (encode i).toNat s = exec i s := by
  have : portReg 2 = .cmd := rfl
  simp [hostWrite, this, whenIdle, idle, issueWord]

/-- Settles O5: the placed write is the head of the list, and the block it meets is idle. -/
theorem placedWordRunsNext : Obligations.PlacedWordRunsNext := by
  intro s i legal
  have word : commandWord ((encode i).toNat % 2 ^ 8) = encode i := by
    rw [Nat.mod_eq_of_lt (encode i).isLt, commandWord_toNat]
  have placed : (s.withFetchWord 8 (encode i).toNat).turns = .hostWrite 2 (encode i).toNat :: s.turns := by
    rw [State.withFetchWord, word]
  rw [step_write (s := s.withFetchWord 8 _) legal placed (byte_fits legal _), hostWrite_encode i rfl]
  rfl

/-- With STRICT 0, CTRL is 0 (R19). -/
theorem ctrlWord_zero : ctrlWord { strict := false } = 0#8 := by decide

/-- With every field 0, STATUS is 0 (R20). -/
theorem statusWord_zero : statusWord Status.zero = 0#8 := by decide

/-- Every register reads 0 after reset (R30). -/
theorem readPort_resetWith (r : PortReg) (c : Config) : readPort r (State.resetWith c) = 0 := by
  cases r with
  | ctrl => exact congrArg BitVec.toNat ctrlWord_zero
  | status => exact congrArg BitVec.toNat statusWord_zero
  | cmd | opa | opb | opc | res0 | res1 | res2 | reserved => rfl

/-- Settles O36: register by register. -/
theorem resetStateIsAllZero : Obligations.ResetStateIsAllZero :=
  fun c => ⟨ctrlWord_zero, statusWord_zero, rfl, rfl, rfl, rfl, rfl, rfl, rfl,
    fun i => readPort_resetWith (portReg i) c, rfl⟩

end Sys2Proof.Machine
end

section
/-! SUPPORT. The host port (20_memory.md R37, R39, R40, R49): what a write does in each of its cases and what a read
returns, one equation each, and the statements that follow from them. -/

namespace Sys2Proof.Machine

variable {s : State} {i : Index} {v v' : Nat} {rest : List Turn}

/-- The indices whose writes BUSY guards are those of the writable registers and CMD (R37, R40). -/
theorem guarded_iff_portReg : i.val ∈ [0, 2, 4, 5, 6] ↔ portReg i ∈ [.ctrl, .cmd, .opa, .opb, .opc] := by
  revert i
  decide

/-- A write to a read-only or reserved index has no effect, busy or idle (R40). -/
theorem hostWrite_unguarded (unguarded : i.val ∉ [0, 2, 4, 5, 6]) : hostWrite i v s = .next s := by
  rw [guarded_iff_portReg] at unguarded
  unfold hostWrite
  cases hr : portReg i with
  | status | res0 | res1 | res2 | reserved => rfl
  | ctrl | cmd | opa | opb | opc => simp [hr] at unguarded

/-- A guarded write while busy is dropped, whatever it would have done (R40). -/
theorem whenIdle_busy {perform : Host.Outcome State Fault Refusal} (busy : s.status.busy = true) :
    whenIdle perform s = .next s.dropWrite :=
  if_pos busy

/-- A guarded write while idle is performed (R40). -/
theorem whenIdle_idle {perform : Host.Outcome State Fault Refusal} (idle : s.status.busy = false) :
    whenIdle perform s = perform :=
  if_neg (Bool.eq_false_iff.mp idle)

/-- A write to a guarded index while busy is dropped (R40). -/
theorem hostWrite_busy (guarded : i.val ∈ [0, 2, 4, 5, 6]) (busy : s.status.busy = true) :
    hostWrite i v s = .next s.dropWrite := by
  rw [guarded_iff_portReg] at guarded
  unfold hostWrite
  cases hr : portReg i with
  | status | res0 | res1 | res2 | reserved => simp [hr] at guarded
  | ctrl | cmd | opa | opb | opc => exact whenIdle_busy busy

/-- A write to CTRL stores bit 0 of the value (R40, R49). -/
theorem hostWrite_ctrl :
    hostWrite 0 v s = whenIdle (.next { s with ctrl := { strict := decide (v % 2 = 1) } }) s := by
  rw [← Nat.testBit_zero]
  rfl

theorem hostWrite_cmd : hostWrite 2 v s = whenIdle (issueWord (commandWord v) s) s := rfl
theorem hostWrite_opa : hostWrite 4 v s = whenIdle (.next (s.setOpa v)) s := rfl
theorem hostWrite_opb : hostWrite 5 v s = whenIdle (.next (s.setOpb v)) s := rfl
theorem hostWrite_opc : hostWrite 6 v s = whenIdle (.next (s.setOpc v)) s := rfl

/-- A command word is the low byte of the value written (R49). -/
theorem commandWord_congr (low : v % 256 = v' % 256) : commandWord v = commandWord v' :=
  BitVec.eq_of_toNat_eq (by simpa [commandWord] using low)

/-- CTRL reads as STRICT (10_state.md R19). -/
theorem ctrlWord_toNat (c : Ctrl) : (ctrlWord c).toNat = if c.strict then 1 else 0 := by
  obtain ⟨strict⟩ := c
  cases strict <;> rfl

/-- The column "Read returns" of the index map (R37). -/
theorem readPort_portReg (i : Index) (s : State) :
    readPort (portReg i) s =
      (if i = 0 then (if s.ctrl.strict then 1 else 0)
      else if i = 1 then (statusWord s.status).toNat
      else if i = 4 then s.opa
      else if i = 5 then s.opb
      else if i = 6 then s.opc
      else if i = 8 then s.res0
      else if i = 9 then s.res1
      else if i = 10 then s.res2
      else 0) := by
  match i with
  | 0 => exact ctrlWord_toNat s.ctrl
  | 1 | 2 | 3 | 4 | 5 | 6 | 7 | 8 | 9 | 10 | 11 | 12 | 13 | 14 | 15 => rfl
  | ⟨n + 16, tooLarge⟩ => omega

/-- While busy the results read as 0: the issue cleared them (R39, 10_state.md R29 item 1). -/
theorem BlockInv.readPort_result (h : BlockInv s) (busy : s.status.busy = true) (result : i.val ∈ [8, 9, 10]) :
    readPort (portReg i) s = 0 := by
  obtain ⟨-, -, -, -, -, res0, res1, res2, -⟩ := h.inFlight busy
  have : i = 8 ∨ i = 9 ∨ i = 10 := by
    revert i
    decide
  obtain rfl | rfl | rfl := this
  exacts [res0, res1, res2]

/-- Settles O30: a read is `readPort` of the index, which is the table's column. -/
theorem hostReadProcedure : Obligations.HostReadProcedure := by
  intro s i rest legal ht
  have read := step_read legal ht
  refine ⟨?_, fun h busy result => ?_⟩
  · rw [read, readPort_portReg]
    rfl
  · rw [read, h.readPort_result busy result]
    rfl

/-- Settles O29: the unguarded indices, a dropped write, and each register of an idle block. -/
theorem hostWriteProcedure : Obligations.HostWriteProcedure := by
  intro s i v rest legal ht fits
  rw [step_write legal ht fits]
  refine ⟨fun unguarded => hostWrite_unguarded ?_, fun guarded busy => hostWrite_busy guarded busy, fun idle => ?_⟩
  · clear ht
    revert i
    decide
  · refine ⟨?_, ?_, ?_, ?_, ?_⟩ <;> rintro rfl
    · exact hostWrite_opa.trans (whenIdle_idle idle)
    · exact hostWrite_opb.trans (whenIdle_idle idle)
    · exact hostWrite_opc.trans (whenIdle_idle idle)
    · exact hostWrite_ctrl.trans (whenIdle_idle idle)
    · exact hostWrite_cmd.trans (whenIdle_idle idle)

/-- Two values whose writes do the same make the same step. -/
theorem step_write_congr (legal : s.cfg.wf = true) (fits : v < 2 ^ s.cfg.width) (fits' : v' < 2 ^ s.cfg.width)
    (same : hostWrite i v (s.withTurns rest) = hostWrite i v' (s.withTurns rest)) :
    step (s.withTurns (.hostWrite i v :: rest)) = step (s.withTurns (.hostWrite i v' :: rest)) := by
  rw [step_write (s := s.withTurns (.hostWrite i v :: rest)) legal rfl fits,
    step_write (s := s.withTurns (.hostWrite i v' :: rest)) legal rfl fits']
  exact same

/-- Settles O31: what is stored and what is issued depend on the low bits alone, and a byte is below 256. -/
theorem wideWriteDataIsIgnored : Obligations.WideWriteDataIsIgnored := by
  refine ⟨fun s v v' legal fits fits' rest => ⟨fun low => ?_, fun low => ?_⟩, fun s i narrow => ?_⟩
  · exact step_write_congr legal fits fits' (by rw [hostWrite_ctrl, hostWrite_ctrl, low])
  · exact step_write_congr legal fits fits' (by rw [hostWrite_cmd, hostWrite_cmd, commandWord_congr low])
  · have : i = 0 ∨ i = 1 ∨ i = 2 := by
      revert i
      decide
    obtain rfl | rfl | rfl := this
    exacts [(ctrlWord s.ctrl).isLt, (statusWord s.status).isLt, Nat.zero_lt_succ 255]

/-- Settles O32: the write stores the value, and the read that follows returns the register. -/
theorem readAfterWriteReturnsTheValue : Obligations.ReadAfterWriteReturnsTheValue := by
  intro s i v rest legal idle fits ht writable
  obtain ⟨-, -, stored⟩ := hostWriteProcedure s i v _ legal ht fits
  obtain ⟨opa, opb, opc, ctrl, -⟩ := stored idle
  have : i = 0 ∨ i = 4 ∨ i = 5 ∨ i = 6 := by
    clear * - writable
    revert i
    decide
  obtain rfl | rfl | rfl | rfl := this
  · refine ⟨_, _, ctrl rfl, step_read legal rfl, rfl, ?_⟩
    rw [readPort_portReg]
    obtain h | h := Nat.mod_two_eq_zero_or_one v <;> simp [h]
  · exact ⟨_, _, opa rfl, step_read legal rfl, rfl, rfl⟩
  · exact ⟨_, _, opb rfl, step_read legal rfl, rfl, rfl⟩
  · exact ⟨_, _, opc rfl, step_read legal rfl, rfl, rfl⟩

end Sys2Proof.Machine
end

section
/-! SUPPORT. Where the model stops, and that it stops nowhere else: what the engine's turn and a step answer, said once
(20_memory.md R35, 10_state.md R29, 42_modpow.md R80, 93_implementation_defined.md part 2 item 9). -/

namespace Sys2Proof.Machine

variable {s : State}

/-- A busy engine completes the command PEND names (30_encoding.md R56). -/
theorem engineTurn_completes {i : Instr} (busy : s.status.busy = true) (pending : s.pend = opcodeOf i)
    (modulus : i = .modpow → s.opc ≠ 0) : engineTurn s = .next (s.commit (resultsOf i s)) := by
  simp [engineTurn, complete, busy, pending, exec_busy i busy modulus]

/-- With a PEND that names no command a busy engine stops (log entry 8). -/
theorem engineTurn_pendNotACommand (busy : s.status.busy = true) (pend : s.pend ∉ [1#4, 2#4, 3#4, 4#4, 5#4]) :
    engineTurn s = .fault .pendNotACommand := by
  simp [engineTurn, complete, busy, commandOf_eq_none.mpr pend]

/-- With MODPOW in flight and no modulus a busy engine stops (log entry 8). -/
theorem engineTurn_modulusZero (busy : s.status.busy = true) (pend : s.pend = 5#4) (zero : s.opc = 0) :
    engineTurn s = .fault .modulusZeroAtCompletion := by
  have named : commandOf s.pend = some .modpow := commandOf_eq_some.mpr pend
  simp [engineTurn, complete, busy, named, exec, execModpow, zero]

/-- Where the engine moves next, the step is its turn (00_scope.md R12). -/
theorem step_eq_engineTurn (legal : s.cfg.wf = true) (now : s.turns = [] ∨ ∃ rest, s.turns = .engine :: rest) :
    ∃ rest, step s = engineTurn (s.withTurns rest) := by
  obtain ht | ⟨rest, ht⟩ := now
  · have emptied : s.withTurns [] = s := ht ▸ s.withTurns_self
    exact ⟨[], by rw [step_nil legal ht, emptied]⟩
  · exact ⟨rest, step_engine legal ht⟩

/-- A write of a value the port cannot express is refused (20_memory.md R35, log entry 7). -/
theorem step_valueTooWide {i : Index} {v : Nat} {rest : List Turn} (legal : s.cfg.wf = true)
    (ht : s.turns = .hostWrite i v :: rest) (wide : 2 ^ s.cfg.width ≤ v) : step s = .refused .valueTooWide := by
  rw [step_cons legal ht]
  exact if_neg wide.not_gt

/-- What a step of a state can answer, and, where it stops, why. -/
inductive Answer (s : State) : Host.Outcome State Fault Refusal → Prop where
  | next (s' : State) : Answer s (.next s')
  | illegalWidth (illegal : s.cfg.wf = false) : Answer s (.refused .illegalWidth)
  | valueTooWide (legal : s.cfg.wf = true) {i : Index} {v : Nat} {rest : List Turn}
      (ht : s.turns = .hostWrite i v :: rest) (wide : 2 ^ s.cfg.width ≤ v) : Answer s (.refused .valueTooWide)
  | pendNotACommand (legal : s.cfg.wf = true) (now : CompletionNext s)
      (pend : s.pend ∉ [1#4, 2#4, 3#4, 4#4, 5#4]) : Answer s (.fault .pendNotACommand)
  | modulusZero (legal : s.cfg.wf = true) (now : CompletionNext s) (pend : s.pend = 5#4) (zero : s.opc = 0) :
      Answer s (.fault .modulusZeroAtCompletion)

/-- Where the engine moves next, the step is a completion, a passed turn, or one of the two faults. -/
theorem step_answer_of_engineNext (legal : s.cfg.wf = true)
    (now : s.turns = [] ∨ ∃ rest, s.turns = .engine :: rest) : Answer s (step s) := by
  obtain ⟨rest, taken⟩ := step_eq_engineTurn legal now
  rw [taken]
  cases busy : s.status.busy with
  | false => exact engineTurn_idle (s := s.withTurns rest) busy ▸ .next _
  | true =>
    cases hi : commandOf s.pend with
    | none =>
      have pend := commandOf_eq_none.mp hi
      exact engineTurn_pendNotACommand (s := s.withTurns rest) busy pend ▸ .pendNotACommand legal ⟨busy, now⟩ pend
    | some i =>
      have pending := commandOf_eq_some.mp hi
      by_cases modulus : i = .modpow → s.opc ≠ 0
      · exact engineTurn_completes (s := s.withTurns rest) busy pending modulus ▸ .next _
      · obtain ⟨rfl, zero⟩ : i = .modpow ∧ s.opc = 0 := by simpa using modulus
        exact engineTurn_modulusZero (s := s.withTurns rest) busy pending zero ▸
          .modulusZero legal ⟨busy, now⟩ pending zero

/-- Every step is one of these. -/
theorem step_answer (s : State) : Answer s (step s) := by
  cases legal : s.cfg.wf with
  | false => exact step_illegalWidth legal ▸ .illegalWidth legal
  | true =>
    cases ht : s.turns with
    | nil => exact step_answer_of_engineNext legal (.inl ht)
    | cons t rest =>
      cases t with
      | engine => exact step_answer_of_engineNext legal (.inr ⟨rest, ht⟩)
      | reset | hostRead => exact step_cons legal ht ▸ .next _
      | hostWrite i v =>
        obtain fits | wide := Nat.lt_or_ge v (2 ^ s.cfg.width)
        · obtain ⟨s', hs'⟩ := hostWrite_answers i v (s.withTurns rest)
          exact step_write legal ht fits ▸ hs' ▸ .next s'
        · exact step_valueTooWide legal ht wide ▸ .valueTooWide legal ht wide

/-- Settles O52: each stop by its own lemma, and no other way to it by the list of all answers. -/
theorem theMachineStopsExactlyHere : Obligations.TheMachineStopsExactlyHere := by
  intro s engineNext
  refine ⟨⟨fun h => ?_, step_illegalWidth⟩, ⟨fun h => ?_, ?_⟩, fun m h => ?_, ⟨fun h => ?_, ?_⟩, ⟨fun h => ?_, ?_⟩⟩
  · cases h ▸ step_answer s with
    | illegalWidth illegal => exact illegal
  · cases h ▸ step_answer s with
    | valueTooWide legal ht wide => exact ⟨legal, _, _, _, ht, wide⟩
  · rintro ⟨legal, i, v, rest, ht, wide⟩
    exact step_valueTooWide legal ht wide
  · cases h ▸ step_answer s
  · cases h ▸ step_answer s with
    | pendNotACommand legal now pend => exact ⟨⟨legal, now⟩, pend⟩
  · rintro ⟨⟨legal, busy, now⟩, pend⟩
    obtain ⟨rest, taken⟩ := step_eq_engineTurn legal now
    exact taken.trans (engineTurn_pendNotACommand busy pend)
  · cases h ▸ step_answer s with
    | modulusZero legal now pend zero => exact ⟨⟨legal, now⟩, pend, zero⟩
  · rintro ⟨⟨legal, busy, now⟩, pend, zero⟩
    obtain ⟨rest, taken⟩ := step_eq_engineTurn legal now
    exact taken.trans (engineTurn_modulusZero busy pend zero)

end Sys2Proof.Machine
end

section
/-! SUPPORT. Runs of several steps: the list of turns grows shorter, an idle block keeps its results until the next issue
(10_state.md R22, 20_memory.md R45), and a busy one is not disturbed by what the host does (20_memory.md R47,
70_reset_and_hazards.md R115). -/

namespace Sys2Proof.Machine

variable {s s' : State}

/-- No turn touches the list of the turns to come. -/
theorem Move.turns_eq {t : Turn} (m : Move t s s') : s'.turns = s.turns := by
  cases m with
  | issued i => cases causeOf i s <;> rfl
  | reset | read | ignored | dropped | storeOpa | storeOpb | storeOpc | storeCtrl | illegal | completed | noStep => rfl

/-- A step takes the head off the list of turns and leaves the rest. -/
theorem step_turns (taken : step s = .next s') : s'.turns = s.turns.tail := by
  obtain ⟨-, t, rest, ht, m⟩ := step_moves taken
  rw [m.turns_eq, State.withTurns_turns]
  obtain ht | ⟨ht, -, rfl⟩ := ht <;> rw [ht] <;> rfl

/-- No issue and no reset is among the turns to come. -/
def NoIssueOrReset (s : State) : Prop := ∀ t ∈ s.turns, t.writesCmd = false ∧ t ≠ .reset

/-- A step of an idle block that is no issue and no reset leaves STATUS, the results and PEND (10_state.md R22). -/
theorem step_sameOutput_of_idle (taken : step s = .next s') (idle : s.status.busy = false) (quiet : NoIssueOrReset s) :
    SameOutput s' s := by
  cases step_outputMove taken with
  | kept out => exact out
  | reset now =>
    obtain ⟨rest, ht⟩ := now
    obtain ⟨-, noReset⟩ := quiet .reset (by simp [ht])
    exact absurd rfl noReset
  | faulted now | accepted now =>
    obtain ⟨v, rest, ht, -⟩ := now
    obtain ⟨noCmd, -⟩ := quiet (.hostWrite 2 v) (by simp [ht])
    exact absurd noCmd nofun
  | dropped now | completed now =>
    obtain ⟨busy, -⟩ := now
    simp [idle] at busy

/-- Settles O51: a completed command's block is idle, each step keeps what it shows, and so does any number of them. -/
theorem committedResultsStay : Obligations.CommittedResultsStay := by
  intro s k h done quiet
  induction k generalizing s with
  | zero => exact ⟨s, rfl, rfl, rfl, rfl, rfl, rfl⟩
  | succ k ih =>
    obtain ⟨idle, -⟩ := h.done done
    obtain ⟨s', taken⟩ := invariantStatesNeverStop s h
    have out := step_sameOutput_of_idle taken idle quiet
    have quiet' : NoIssueOrReset s' := fun t ht => quiet t (List.mem_of_mem_tail (step_turns taken ▸ ht))
    obtain ⟨t, run, res0, res1, res2, status, pend⟩ := ih s' (h.step taken) (out.status ▸ done) quiet'
    exact ⟨t, (runSteps_succ taken).trans run, res0.trans out.res0, res1.trans out.res1, res2.trans out.res2,
      status.trans out.status, pend.trans out.pend⟩

/-- The state after host transactions while busy: BUSYERR says whether a write was dropped, and the host has read. -/
def State.afterHost (dropped : Bool) (vs : List Nat) (s : State) : State :=
  { s with status := { s.status with busyErr := s.status.busyErr || dropped }, returned := vs }

/-- A transaction while busy does no more than that (R39, R40). -/
theorem Move.eq_afterHost {t : Turn} (m : Move t s s') (busy : s.status.busy = true) (host : t.isTransaction = true) :
    s' = s.afterHost t.writesGuarded s'.returned := by
  cases m with
  | reset | completed | noStep => simp [Turn.isTransaction] at host
  | read => simp [State.afterHost, Turn.writesGuarded, State.returnToHost]
  | ignored i v _ unguarded => simp [State.afterHost, Turn.writesGuarded, unguarded]
  | dropped i v _ guarded => simp [State.afterHost, Turn.writesGuarded, guarded, State.dropWrite]
  | storeOpa | storeOpb | storeOpc | storeCtrl | illegal | issued =>
    exact absurd ‹s.status.busy = false› (by simp [busy])

/-- Two runs of transactions add up: BUSYERR is set if either had a dropped write, and the last reads are kept. -/
theorem State.afterHost_afterHost (d d' : Bool) (vs vs' : List Nat) (ts rest : List Turn) (s : State) :
    (((s.withTurns ts).afterHost d vs).withTurns rest).afterHost d' vs' =
      (s.withTurns rest).afterHost (d || d') vs' := by
  simp [State.afterHost, State.withTurns, Bool.or_assoc]

/-- One transaction while busy, as a step. -/
theorem BlockInv.step_transaction (h : BlockInv s) (busy : s.status.busy = true) {t : Turn} {rest : List Turn}
    (ht : s.turns = t :: rest) (host : t.isTransaction = true) :
    ∃ vs, Machine.step s = .next ((s.withTurns rest).afterHost t.writesGuarded vs) := by
  obtain ⟨s', taken⟩ := invariantStatesNeverStop s h
  have m : Move t (s.withTurns rest) s' := takeTurn_moves ((step_cons h.legal ht).symm.trans taken)
  exact ⟨s'.returned, taken.trans (congrArg _ (m.eq_afterHost busy host))⟩

/-- Any list of transactions while busy, as a run. -/
theorem BlockInv.runSteps_transactions (h : BlockInv s) (busy : s.status.busy = true) {ts rest : List Turn}
    (ht : s.turns = ts ++ rest) (host : ∀ t ∈ ts, t.isTransaction = true) :
    ∃ vs, runSteps ts.length s = .next ((s.withTurns rest).afterHost (ts.any Turn.writesGuarded) vs) := by
  induction ts generalizing s with
  | nil =>
    have unchanged : (s.withTurns rest).afterHost false s.returned = s := by
      rw [← show s.turns = rest from ht, s.withTurns_self]
      simp [State.afterHost]
    exact ⟨s.returned, congrArg _ unchanged.symm⟩
  | cons t ts ih =>
    obtain ⟨host_t, host_ts⟩ := List.forall_mem_cons.mp host
    obtain ⟨vs, taken⟩ := h.step_transaction busy ht host_t
    obtain ⟨vs', run⟩ := ih (h.step taken) busy rfl host_ts
    rw [State.afterHost_afterHost] at run
    exact ⟨vs', (runSteps_succ taken).trans run⟩

/-- A busy state that meets the invariant has a command in flight which can complete (10_state.md R29 items 1, 8). -/
theorem BlockInv.inFlight_completes (h : BlockInv s) (busy : s.status.busy = true) :
    ∃ i, s.pend = opcodeOf i ∧ (i = .modpow → s.opc ≠ 0) := by
  obtain ⟨s', hs'⟩ := h.engineTurn_answers
  cases engineTurn_moves hs' with
  | completed i _ _ pending modulus => exact ⟨i, pending, modulus⟩
  | noStep _ idle => simp [busy] at idle

/-- What a command will write depends neither on the turns to come nor on what the host did while busy. -/
theorem resultsOf_withTurns (i : Instr) (ts : List Turn) (s : State) : resultsOf i (s.withTurns ts) = resultsOf i s :=
  resultsOf_congr rfl (fun _ => rfl) fun _ => rfl

theorem resultsOf_afterHost (i : Instr) (dropped : Bool) (vs : List Nat) (s : State) :
    resultsOf i (s.afterHost dropped vs) = resultsOf i s :=
  resultsOf_congr rfl (fun _ => rfl) fun _ => rfl

/-- The completion of the command in flight, as a step (30_encoding.md R56). -/
theorem step_completes {i : Instr} {rest : List Turn} (legal : s.cfg.wf = true) (ht : s.turns = .engine :: rest)
    (busy : s.status.busy = true) (pending : s.pend = opcodeOf i) (modulus : i = .modpow → s.opc ≠ 0) :
    step s = .next ((s.withTurns rest).commit (resultsOf i s)) := by
  rw [step_engine legal ht, engineTurn_completes (s := s.withTurns rest) busy pending modulus, resultsOf_withTurns]

/-- Settles O45: the host leaves the operands and PEND, so the same command commits the same results. -/
theorem resultsDoNotDependOnTiming : Obligations.ResultsDoNotDependOnTiming := by
  intro s ts rest h busy ht host
  obtain ⟨vs, run⟩ := h.runSteps_transactions busy ht host
  obtain ⟨i, pending, modulus⟩ := h.inFlight_completes busy
  refine ⟨_, _, (runSteps_last run).trans (step_completes h.legal rfl busy pending modulus),
    step_completes (s := s.withTurns (.engine :: rest)) h.legal rfl busy pending modulus, ?_, rfl, rfl, rfl⟩
  rw [resultsOf_afterHost]
  rfl

end Sys2Proof.Machine
end

section
/-! SUPPORT. Command words (30_encoding.md R50, R52, R53): a word is its two fields, and which words are commands. -/

namespace Sys2Proof

/-- A command word is its two fields, the reserved one above the opcode (R50). -/
theorem rsvField_append_opcodeField (c : Byte) : rsvField c ++ opcodeField c = c :=
  (BitVec.extractLsb'_append_extractLsb'_eq_extractLsb' (x := c) rfl).trans BitVec.extractLsb'_eq_self

/-- A word is a command exactly when the whole of it is that command's word (R52). -/
theorem decode_eq_ok_iff_eq_encode {c : Byte} {i : Instr} : decode c = .ok i ↔ c = encode i := by
  constructor
  · intro word
    obtain ⟨rsv, op⟩ := decode_eq_ok.mp word
    rw [← rsvField_append_opcodeField c, rsv, op, encode]
  · rintro rfl
    exact Machine.decode_encode i

/-- Settles O1: the words by their definition, and the decoder by the word's fields. -/
theorem commandWordsAreTheTable : Obligations.CommandWordsAreTheTable :=
  ⟨⟨rfl, rfl, rfl, rfl, rfl⟩, fun _ _ => decode_eq_ok_iff_eq_encode⟩

/-- Settles O2: by running the decoder on the six words. -/
theorem sampleWordsDecode : Obligations.SampleWordsDecode :=
  ⟨rfl, rfl, rfl, rfl, rfl, rfl⟩

/-- The opcodes of the five commands, as numbers (R52). -/
theorem opcode_mem_iff_toNat_mem {op : Opcode} :
    op ∈ [1#4, 2#4, 3#4, 4#4, 5#4] ↔ op.toNat ∈ [1, 2, 3, 4, 5] := by
  revert op
  decide

/-- The decoder gives no command exactly when it rejects the word (R53). -/
theorem decode_toOption_eq_none {c : Byte} : (decode c).toOption = none ↔ ∃ r, decode c = .error r := by
  cases decode c <;> simp [Except.toOption]

/-- The words the decoder rejects, by their fields as numbers (R53). -/
theorem decode_toOption_eq_none_iff_fields {c : Byte} :
    (decode c).toOption = none ↔ rsvField c ≠ 0#4 ∨ (opcodeField c).toNat ∉ [1, 2, 3, 4, 5] := by
  rw [decode_toOption_eq_none, decode_eq_error, opcode_mem_iff_toNat_mem]

/-- A byte has a reserved bit set or an opcode outside 1 to 5 exactly when it is none of the numbers 1 to 5 (R53). -/
theorem fields_illegal_iff {c : Nat} : c / 16 ≠ 0 ∨ c % 16 ∉ [1, 2, 3, 4, 5] ↔ c ∉ [1, 2, 3, 4, 5] := by
  simp only [List.mem_cons, List.not_mem_nil, or_false]
  omega

/-- The values written to CMD that are no command: those whose low byte is not 1 to 5 (R50, R53). -/
theorem decode_commandWord_eq_error {v : Nat} :
    (∃ r, decode (commandWord v) = .error r) ↔ v % 256 ∉ [1, 2, 3, 4, 5] := by
  rw [← decode_toOption_eq_none, decode_toOption_eq_none_iff_fields, ne_eq, ← BitVec.toNat_inj,
    rsvField_commandWord, opcodeField_commandWord]
  exact fields_illegal_iff

/-- All but five of the 256 words are rejected: of the first six word 0 alone, and every word after them (R53). -/
theorem countP_illegal_words :
    (List.range 256).countP (fun n => (decode (BitVec.ofNat 8 n)).toOption.isNone) = 251 := by
  have illegal (n : Nat) (byte : n < 256) :
      (decode (BitVec.ofNat 8 n)).toOption.isNone = decide (n ∉ [1, 2, 3, 4, 5]) := by
    rw [Bool.eq_iff_iff, Option.isNone_iff_eq_none, decide_eq_true_iff, decode_toOption_eq_none,
      ← Nat.mod_eq_of_lt byte, ← decode_commandWord_eq_error, commandWord, Nat.mod_eq_of_lt byte]
  have later : (List.range 250).countP ((fun n => (decode (BitVec.ofNat 8 n)).toOption.isNone) ∘ (6 + ·)) = 250 := by
    rw [List.countP_eq_length.mpr, List.length_range]
    intro n hn
    rw [List.mem_range] at hn
    rw [Function.comp_apply, illegal (6 + n) (by omega), decide_eq_true_iff]
    simp only [List.mem_cons, List.not_mem_nil, or_false]
    omega
  have split : List.range 256 = List.range 6 ++ (List.range 250).map (6 + ·) := List.range_add (m := 250)
  rw [split, List.countP_append, List.countP_map, later]
  rfl

end Sys2Proof
end

section
/-! SUPPORT. Issue and completion (30_encoding.md R54, R55, R56): the state each leaves, and each as a step. -/

namespace Sys2Proof.Machine

variable {s : State} {v : Nat} {rest : List Turn}

/-- The state a fault leaves of an idle block (R54; 60_exceptions.md R88). -/
theorem State.faultEntry_idle (idle : s.status.busy = false) (f : Cause) :
    s.faultEntry f = { s with
      res0 := 0, res1 := 0, res2 := 0
      status := { busy := false, done := false, err := true, busyErr := false, xNeg := false, yNeg := false,
                  ecode := causeCode f } } := by
  simp [State.clearForIssue, State.raise, idle]

/-- A word that is no command raises IllegalCommand (R53). -/
theorem issueWord_illegal (illegal : v % 256 ∉ [1, 2, 3, 4, 5]) :
    issueWord (commandWord v) s = .next (s.faultEntry .illegalCommand) := by
  obtain ⟨r, word⟩ := decode_commandWord_eq_error.mpr illegal
  simp only [issueWord, word]

/-- A command's word runs the command (R54). -/
theorem issueWord_command {c : Byte} {i : Instr} (word : decode c = .ok i) : issueWord c s = exec i s := by
  simp only [issueWord, word]

/-- A write to CMD while idle is the issue of the low byte of what was written (R54; 20_memory.md R40). -/
theorem step_issue (legal : s.cfg.wf = true) (ht : s.turns = .hostWrite 2 v :: rest) (fits : v < 2 ^ s.cfg.width)
    (idle : s.status.busy = false) : step s = issueWord (commandWord v) (s.withTurns rest) :=
  (step_write legal ht fits).trans (hostWrite_cmd.trans (whenIdle_idle idle))

/-- Settles O3: the five legal words are counted out, and any other word faults. -/
theorem illegalWordsRaiseIllegalCommand : Obligations.IllegalWordsRaiseIllegalCommand := by
  refine ⟨countP_illegal_words, fun c => decode_toOption_eq_none_iff_fields, ?_⟩
  intro s v rest legal ht fits idle illegal
  rw [step_issue legal ht fits idle, issueWord_illegal illegal, State.faultEntry_idle (s := s.withTurns rest) idle]
  rfl

/-- Settles O24: an issue accepts or faults, a completion commits, and neither touches the rest. -/
theorem commandsLeaveTheRestUnchanged : Obligations.CommandsLeaveTheRestUnchanged := by
  intro i s t answered
  refine ⟨exec_frame answered, fun idle => ?_, fun busy => ?_⟩
  · rw [exec_idle i idle] at answered
    cases answered
    cases causeOf i s with
    | none => simp
    | some f => cases f <;> simp [causeCode, idle]
  · obtain ⟨idle, -⟩ | ⟨-, -, rfl⟩ := exec_next_cases answered
    · simp [busy] at idle
    · simp

/-- The faults of R82 and R93 in their order, said of every command: only opcode 5 has any. -/
theorem causeOf_eq (i : Instr) (s : State) :
    causeOf i s =
      if (opcodeOf i).toNat = 5 ∧ s.opc = 0 then some .arithmeticError
      else if (opcodeOf i).toNat = 5 ∧ s.ctrl.strict = true ∧ s.opc ≤ s.opa then some .invalidInput
      else none := by
  cases i with
  | isprime | gcd | xgcd | xgcdn => rfl
  | modpow => simp [causeOf, modpowCause, opcodeOf]

/-- The faults of an issue do not depend on the turns to come. -/
theorem causeOf_withTurns (i : Instr) (ts : List Turn) (s : State) : causeOf i (s.withTurns ts) = causeOf i s := by
  cases i <;> rfl

/-- Settles O26: a word that is no command faults; a command faults by the two later tests or is accepted. -/
theorem issueProcedure : Obligations.IssueProcedure := by
  intro s v rest legal ht fits idle c faulted
  have fault (f : Cause) : (s.withTurns rest).faultEntry f = faulted (causeCode f) :=
    State.faultEntry_idle (s := s.withTurns rest) idle f
  rw [step_issue legal ht fits idle]
  by_cases illegal : c ∉ [1, 2, 3, 4, 5]
  · rw [issueWord_illegal illegal, if_pos (fields_illegal_iff.mpr illegal), fault]
    rfl
  · rw [if_neg (mt fields_illegal_iff.mp illegal)]
    obtain ⟨i, word⟩ : ∃ i, decode (commandWord v) = .ok i := by
      cases word : decode (commandWord v) with
      | ok i => exact ⟨i, rfl⟩
      | error r => exact absurd (decode_commandWord_eq_error.mp ⟨r, word⟩) illegal
    have opcode : c % 16 = (opcodeOf i).toNat := by
      rw [show c = (opcodeOf i).toNat from decode_commandWord.mp word]
      exact Nat.mod_eq_of_lt (opcodeOf i).isLt
    rw [issueWord_command word, exec_idle (s := s.withTurns rest) i idle, causeOf_withTurns, causeOf_eq,
      opcode, BitVec.ofNat_toNat, BitVec.setWidth_eq]
    split_ifs
    · exact congrArg _ (fault .arithmeticError)
    · exact congrArg _ (fault .invalidInput)
    · rfl

/-- What XGCD writes, by the triple of `egcd` (41_gcd.md R74). -/
theorem xgcdResults_of_egcd {a b g : Nat} {x y : Int} (h : egcd a b = (g, x, y)) :
    xgcdResults a b =
      { res0 := g, res1 := x.natAbs, res2 := y.natAbs, xNeg := decide (x < 0), yNeg := decide (y < 0) } := by
  simp only [xgcdResults, h, magnitude, signFlag]

/-- What XGCDN writes, by the triple of `egcd` (41_gcd.md R75). -/
theorem xgcdnResults_of_egcd {a b g : Nat} {x y : Int} (h : egcd a b = (g, x, y)) :
    xgcdnResults a b =
      { res0 := g, res1 := (normalise x b).toNat, res2 := y.natAbs, xNeg := false, yNeg := decide (y < 0) } := by
  simp only [xgcdnResults, h, magnitude, signFlag]

/-- Settles O27: an idle engine's turn passes, and a busy one commits what the command PEND names writes. -/
theorem completionProcedure : Obligations.CompletionProcedure := by
  intro s rest legal ht completed
  refine ⟨fun idle => ?_, fun busy => ?_⟩
  · exact (step_engine legal ht).trans (engineTurn_idle idle)
  · have commits (i : Instr) (pending : s.pend = opcodeOf i) (modulus : i = .modpow → s.opc ≠ 0) :=
      step_completes legal ht busy pending modulus
    refine ⟨fun pend => commits .isprime pend nofun, fun pend => commits .gcd pend nofun, fun g x y pend h => ?_,
      fun g x y pend h => ?_, fun pend modulus => commits .modpow pend fun _ => modulus⟩
    · rw [commits .xgcd pend nofun, resultsOf, xgcdResults_of_egcd h]
      rfl
    · rw [commits .xgcdn pend nofun, resultsOf, xgcdnResults_of_egcd h]
      rfl

/-- Settles O4: the issue of a word that decodes, and the completion of the command PEND names, on the list or past its
end. -/
theorem stepRunsTheDecodedCommand : Obligations.StepRunsTheDecodedCommand := by
  refine ⟨fun s v rest i legal ht fits idle word => ?_, fun s rest i legal now busy pending => ?_⟩
  · exact (step_issue legal ht fits idle).trans (issueWord_command word)
  · have completes : engineTurn (s.withTurns rest) = exec i (s.withTurns rest) := by
      simp [engineTurn, complete, busy, pending]
    obtain ht | ⟨ht, rfl⟩ := now
    · exact (step_engine legal ht).trans completes
    · have emptied : s.withTurns [] = s := ht ▸ s.withTurns_self
      rw [emptied] at completes
      exact ((step_nil legal ht).trans completes).trans (congrArg (exec i) emptied.symm)

end Sys2Proof.Machine
end

section
/-! SUPPORT. The normalised coefficient of XGCDN (41_gcd.md R75, R76): it is never negative, and modulo the second
operand it is the coefficient of `egcd`. -/

namespace Sys2Proof.Machine

/-- A negative coefficient is no further below 0 than the one addition brings it back (R76). -/
theorem neg_le_egcd_coefficient (a b : Nat) : -(b : Int) ≤ (egcd a b).2.1 := by
  obtain ⟨bound, -⟩ := egcd_natAbs_le a b
  obtain rfl | hb := Nat.eq_zero_or_pos b
  · have bezout := egcd_bezout a 0
    obtain rfl | ha := Nat.eq_zero_or_pos a
    · simp
    · have ha' : (a : Int) ≠ 0 := by exact_mod_cast ha.ne'
      have : (egcd a 0).2.1 = 1 := mul_left_cancel₀ ha' (by simpa using bezout)
      simp [this]
  · have := Nat.div_le_self b (Nat.gcd a b)
    omega

/-- So `d` is not negative, and RES1 holds it exactly (R75, R76). -/
theorem toNat_normalise_egcd (a b : Nat) :
    ((normalise (egcd a b).2.1 b).toNat : Int) = normalise (egcd a b).2.1 b := by
  have := neg_le_egcd_coefficient a b
  unfold normalise
  split <;> omega

/-- The conditional addition changes nothing modulo `b` (R75). -/
theorem normalise_modEq (x : Int) (b : Nat) : normalise x b ≡ x [ZMOD b] := by
  unfold normalise
  split
  · rfl
  · exact Int.add_modEq_right

/-- Modulo `b`, the first operand times `d` is the divisor: the other term of the Bézout equation vanishes (R76). -/
theorem mul_normalise_egcd_modEq (a b : Nat) :
    (a : Int) * normalise (egcd a b).2.1 b ≡ Nat.gcd a b [ZMOD b] :=
  calc (a : Int) * normalise (egcd a b).2.1 b
      ≡ a * (egcd a b).2.1 [ZMOD b] := (normalise_modEq _ b).mul_left _
    _ ≡ a * (egcd a b).2.1 + b * (egcd a b).2.2 [ZMOD b] := Int.modEq_add_fac_self.symm
    _ = Nat.gcd a b := egcd_bezout a b

/-- Where the operands are coprime and `b ≥ 2`, `d` is the inverse of the first (R76 item 4). -/
theorem mul_toNat_normalise_egcd_mod {a b : Nat} (coprime : Nat.gcd a b = 1) (hb : 2 ≤ b) :
    a * (normalise (egcd a b).2.1 b).toNat % b = 1 := by
  have inverse : a * (normalise (egcd a b).2.1 b).toNat ≡ 1 [MOD b] := by
    rw [← Int.natCast_modEq_iff, Nat.cast_mul, toNat_normalise_egcd, ← coprime]
    exact mul_normalise_egcd_modEq a b
  exact Eq.trans inverse (Nat.mod_eq_of_lt hb)

end Sys2Proof.Machine
end

section
/-! SUPPORT. The expansions of the pseudo-instructions (30_encoding.md R60, R62, R63, R64) as runs: the operands are
loaded, the command is accepted, and `WAIT` sees it complete. -/

namespace Sys2Proof.Machine

variable {s : State} {i : Instr} {early : Nat} {rest : List Turn}

/-- `WR` is one host write (R59). -/
theorem turnsOf_wr (reg : Index) (val : Nat) (p : List Stmt) :
    turnsOf early (.wr reg val :: p) = .hostWrite reg val :: turnsOf early p := rfl

/-- A command and its `WAIT` are the write of its word, the early reads, the completion and one read more (R59, R60). -/
theorem turnsOf_command_wait :
    turnsOf early [.command i, .wait] =
      .hostWrite 2 (encode i).toNat :: (List.replicate early (.hostRead 1) ++ [.engine, .hostRead 1]) := by
  simp [turnsOf, Stmt.turns]

/-- The block once a command was accepted and has completed, with nothing between (R55, R56). -/
def State.afterCommand (i : Instr) (s : State) : State :=
  (s.clearForIssue.accept (opcodeOf i)).commit (resultsOf i s)

/-- With DONE alone set, STATUS is 0x02 (10_state.md R20). -/
theorem statusWord_done : statusWord { Status.zero with done := true } = 0x02#8 := by decide

/-- After MODPOW, STATUS has DONE set and nothing else, which is what a read returns (42_modpow.md R81). -/
theorem statusWord_afterCommand_modpow (s : State) : (statusWord (s.afterCommand .modpow).status).toNat = 0x02 :=
  congrArg BitVec.toNat statusWord_done

/-- A command's word written while idle puts the command in flight, where it raises no fault (R55). -/
theorem step_accepts (legal : s.cfg.wf = true) (idle : s.status.busy = false) (noFault : causeOf i s = none)
    (ht : s.turns = .hostWrite 2 (encode i).toNat :: rest) :
    step s = .next ((s.withTurns rest).clearForIssue.accept (opcodeOf i)) := by
  rw [step_write legal ht (byte_fits legal _), hostWrite_encode (s := s.withTurns rest) i idle,
    exec_idle (s := s.withTurns rest) i idle, causeOf_withTurns, noFault, State.issue_none]

/-- Transactions that drop no write leave the block as it is (20_memory.md R39). -/
theorem State.afterHost_false (vs : List Nat) (s : State) : s.afterHost false vs = { s with returned := vs } := by
  simp [State.afterHost]

/-- `WAIT` with a command in flight: however many reads come early, the command completes and the last read returns
STATUS (R60). -/
theorem BlockInv.runSteps_wait (h : BlockInv s) (busy : s.status.busy = true) (pending : s.pend = opcodeOf i)
    (modulus : i = .modpow → s.opc ≠ 0)
    (ht : s.turns = List.replicate early (.hostRead 1) ++ .engine :: .hostRead 1 :: rest) :
    ∃ vs, runSteps (early + 2) s = .next { s.commit (resultsOf i s) with
      turns := rest, returned := (statusWord (s.commit (resultsOf i s)).status).toNat :: vs } := by
  have noDrop : (List.replicate early (Turn.hostRead 1)).any Turn.writesGuarded = false := by simp [Turn.writesGuarded]
  obtain ⟨vs, reads⟩ := h.runSteps_transactions busy ht (by simp [Turn.isTransaction])
  rw [List.length_replicate, noDrop, State.afterHost_false] at reads
  have completes := (runSteps_last reads).trans (step_completes h.legal rfl busy pending modulus)
  refine ⟨vs, (runSteps_last completes).trans ((step_read (by exact h.legal) rfl).trans ?_)⟩
  cases i <;> rfl

/-- A command and its `WAIT`, from an idle block in which the command raises no fault: the results are those of
accepting and completing it, and the last read returns STATUS (R55, R56, R60). -/
theorem BlockInv.runSteps_command_wait (h : BlockInv s) (idle : s.status.busy = false) (noFault : causeOf i s = none)
    (ht : s.turns = turnsOf early [.command i, .wait] ++ rest) :
    ∃ vs, runSteps (early + 3) s = .next { s.afterCommand i with
      turns := rest, returned := (statusWord (s.afterCommand i).status).toNat :: vs } := by
  rw [turnsOf_command_wait, List.cons_append, List.append_assoc] at ht
  have accepts := step_accepts h.legal idle noFault ht
  have modulus : i = .modpow → s.opc ≠ 0 := by
    rintro rfl
    exact (modpowCause_eq_none.mp noFault).1
  obtain ⟨vs, wait⟩ := (h.step accepts).runSteps_wait rfl rfl modulus rfl
  refine ⟨vs, (runSteps_succ accepts).trans (wait.trans ?_)⟩
  cases i <;> rfl

/-- Loading OPA and OPB, in two steps (R59; 20_memory.md R40). -/
theorem BlockInv.runSteps_loads {a b : Nat} (h : BlockInv s) (idle : s.status.busy = false)
    (ht : s.turns = .hostWrite 4 a :: .hostWrite 5 b :: rest) :
    runSteps 2 s = .next (((s.setOpa a).setOpb b).withTurns rest) ∧
      BlockInv (((s.setOpa a).setOpb b).withTurns rest) := by
  have opa := (step_write h.legal ht (h.fits ht)).trans (hostWrite_opa.trans (whenIdle_idle idle))
  have h' := h.step opa
  have opb := (step_write h'.legal rfl (h'.fits rfl)).trans (hostWrite_opb.trans (whenIdle_idle idle))
  exact ⟨(runSteps_succ opa).trans (runSteps_succ opb), h'.step opb⟩

/-- Settles O48: the operands are loaded and XGCDN runs; what RES1 holds is the normalised coefficient. -/
theorem derivedComputesTheExponent : Obligations.DerivedComputesTheExponent := by
  refine ⟨fun _ _ => rfl, fun s early e phi rest h idle ht => ?_⟩
  rw [Pseudo.expand, turnsOf_wr, turnsOf_wr, List.cons_append, List.cons_append] at ht
  obtain ⟨loads, loaded⟩ := h.runSteps_loads idle ht
  obtain ⟨vs, run⟩ := loaded.runSteps_command_wait (i := .xgcdn) idle rfl rfl
  have total := (runSteps_add (early + 3) loads).trans run
  rw [show 2 + (early + 3) = early + 5 by omega] at total
  refine ⟨_, total, ?_, toNat_normalise_egcd e phi, rfl, rfl, rfl, rfl, rfl, rfl, fun coprime hphi => ?_⟩
  · exact (egcd_fst e phi).trans (euclidGcd_eq e phi).symm
  · exact mul_toNat_normalise_egcd_mod (euclidGcd_eq e phi ▸ coprime) hphi

/-- Settles O47: the operands are loaded and MODPOW, which raises no fault, runs. -/
theorem encryptAndDecryptComputeThePower : Obligations.EncryptAndDecryptComputeThePower := by
  have word : (encode .modpow).toNat = 0x05 := by decide
  refine ⟨fun _ _ _ => ⟨rfl, rfl⟩, fun early m e n => by simp [turnsOf_wr, turnsOf_command_wait, word],
    fun s early m e n rest p hp h idle ht modulus strict => ?_⟩
  have expansion : p.expand = [.wr 4 m, .wr 5 e, .wr 6 n, .command .modpow, .wait] := by
    obtain rfl | rfl := hp <;> rfl
  rw [expansion, turnsOf_wr, turnsOf_wr, turnsOf_wr, List.cons_append, List.cons_append, List.cons_append] at ht
  obtain ⟨loads, loaded⟩ := h.runSteps_loads idle ht
  have opc := (step_write loaded.legal rfl (loaded.fits rfl)).trans (hostWrite_opc.trans (whenIdle_idle idle))
  obtain ⟨vs, run⟩ := (loaded.step opc).runSteps_command_wait (i := .modpow) idle
    (modpowCause_eq_none.mpr ⟨modulus, strict⟩) rfl
  have total := (runSteps_add (early + 3 + 1) loads).trans ((runSteps_succ opc).trans run)
  rw [show 2 + (early + 3 + 1) = early + 6 by omega] at total
  exact ⟨_, total, rfl, rfl, rfl, statusWord_done, rfl, rfl, rfl, rfl, rfl,
    congrArg some (statusWord_afterCommand_modpow _)⟩

end Sys2Proof.Machine
end

section
/-! SUPPORT. Trial division (40_isprime.md R66): among the numbers above 3 that neither 2 nor 3 divides, those no trial
divisor divides, and those the loop answers true for, are the primes (R67). -/

namespace Sys2Proof.Machine

variable {n d : Nat}

/-- A divisor of a number prime to 6 is a trial divisor: it is 5 or 1 modulo 6 (R67). -/
theorem mod_six_of_dvd (two : n % 2 ≠ 0) (three : n % 3 ≠ 0) (hd : d ∣ n) : d % 6 = 5 ∨ d % 6 = 1 := by
  have : ¬ 2 ∣ d := fun h => two (Nat.mod_eq_zero_of_dvd (h.trans hd))
  have : ¬ 3 ∣ d := fun h => three (Nat.mod_eq_zero_of_dvd (h.trans hd))
  omega

/-- A number the first three tests leave is prime exactly when no trial divisor up to its square root divides it: every
divisor it could have there is one (R67). -/
theorem prime_iff_no_trial_divisor (large : 3 < n) (two : n % 2 ≠ 0) (three : n % 3 ≠ 0) :
    Nat.Prime n ↔ ∀ d, 5 ≤ d → (d % 6 = 5 ∨ d % 6 = 1) → d * d ≤ n → ¬ d ∣ n := by
  rw [Nat.prime_def_le_sqrt]
  constructor
  · rintro ⟨-, untried⟩ d hd _ square
    exact untried d (by omega) (Nat.le_sqrt.mpr square)
  · intro untried
    refine ⟨by omega, fun d hd root divides => ?_⟩
    have residue := mod_six_of_dvd two three divides
    exact untried d (by omega) residue (Nat.le_sqrt.mp root) divides

/-- From 5 on, `n` passes are enough, and the loop finds no divisor exactly in a prime: it tries every trial divisor, and
`i + 2` is a proper divisor even where it is past the square root (R67). -/
theorem trialLoop_eq_true_iff_prime (large : 3 < n) (two : n % 2 ≠ 0) (three : n % 3 ≠ 0) :
    trialLoop n n 5 = true ↔ Nat.Prime n := by
  rw [trialLoop_eq_true (by nlinarith)]
  constructor
  · intro untried
    rw [prime_iff_no_trial_divisor large two three]
    intro d hd residue square
    obtain ⟨j, rfl | rfl⟩ : ∃ j, d = 5 + 6 * j ∨ d = 5 + 6 * j + 2 := ⟨(d - 5) / 6, by omega⟩
    · exact (untried j square).1
    · exact (untried j (by nlinarith)).2
  · intro prime j square
    obtain ⟨-, noProper⟩ := Nat.prime_def_lt'.mp prime
    exact ⟨noProper _ (by omega) (by nlinarith), noProper _ (by omega) (by nlinarith)⟩

/-- Above 3, a multiple of 2 or 3 is no prime (R67). -/
theorem not_prime_of_two_or_three_dvd (large : 3 < n) (h : n % 2 = 0 ∨ n % 3 = 0) : ¬ Nat.Prime n := by
  intro prime
  obtain ⟨-, noProper⟩ := Nat.prime_def_lt'.mp prime
  obtain two | three := h
  · exact noProper 2 le_rfl (by omega) (Nat.dvd_of_mod_eq_zero two)
  · exact noProper 3 (by omega) large (Nat.dvd_of_mod_eq_zero three)

theorem isPrime_of_le_one (h : n ≤ 1) : isPrime n = false := if_pos h
theorem isPrime_two : isPrime 2 = true := rfl
theorem isPrime_three : isPrime 3 = true := rfl

/-- The third test (R66). -/
theorem isPrime_of_two_or_three_dvd (large : 3 < n) (h : n % 2 = 0 ∨ n % 3 = 0) : isPrime n = false := by
  rw [isPrime, if_neg (by omega), if_neg (by omega), if_pos h]

/-- What the first three tests leave goes to the loop (R66). -/
theorem isPrime_eq_trialLoop (large : 3 < n) (two : n % 2 ≠ 0) (three : n % 3 ≠ 0) :
    isPrime n = trialLoop n n 5 := by
  rw [isPrime, if_neg (by omega), if_neg (by omega), if_neg (by omega)]

/-- Settles O7: the numbers up to 3, the multiples of 2 and 3 above it, and the loop. -/
theorem isPrimeIsPrimality : Obligations.IsPrimeIsPrimality := by
  intro n
  obtain small | rfl | rfl | large : n ≤ 1 ∨ n = 2 ∨ n = 3 ∨ 3 < n := by omega
  · simp [isPrime_of_le_one small, mt Nat.Prime.one_lt small.not_gt]
  · simp [isPrime_two, Nat.prime_two]
  · simp [isPrime_three, Nat.prime_three]
  · by_cases early : n % 2 = 0 ∨ n % 3 = 0
    · simp [isPrime_of_two_or_three_dvd large early, not_prime_of_two_or_three_dvd large early]
    · obtain ⟨two, three⟩ := not_or.mp early
      rw [isPrime_eq_trialLoop large two three, trialLoop_eq_true_iff_prime large two three]

/-- Settles O6: the early tests, and for the loop that both sides say the number is prime. -/
theorem trialDivisionContract : Obligations.TrialDivisionContract :=
  ⟨fun _ => isPrime_of_le_one, isPrime_two, isPrime_three, fun _ => isPrime_of_two_or_three_dvd,
    fun n large two three => (isPrimeIsPrimality n).trans (prime_iff_no_trial_divisor large two three)⟩

end Sys2Proof.Machine
end

section
/-! SUPPORT. The command ISPRIME (40_isprime.md R65): the states its issue and its completion leave. -/

namespace Sys2Proof.Machine

/-- The state the accept of a command leaves of an idle block, where the command raises no fault (30_encoding.md R54,
R55). -/
theorem exec_accepts {s : State} {i : Instr} (idle : s.status.busy = false) (noFault : causeOf i s = none) :
    exec i s = .next { s with
      res0 := 0, res1 := 0, res2 := 0, pend := opcodeOf i
      status := { busy := true, done := false, err := false, busyErr := false, xNeg := false, yNeg := false,
                  ecode := 0#2 } } := by
  rw [exec_idle i idle, noFault]
  rfl

/-- Settles O15: ISPRIME raises no fault and asks for no modulus; the corner cases by running `isPrime`. -/
theorem isprimeIssuesAndCompletes : Obligations.IsprimeIssuesAndCompletes :=
  ⟨rfl, ⟨by decide, by decide⟩, fun _ idle => exec_accepts idle rfl, fun _ busy => exec_busy .isprime busy nofun⟩

end Sys2Proof.Machine
end

section
/-! SUPPORT. `gcd` (41_gcd.md R70): it is the greatest common divisor of the library, whose facts the rule lists. -/

namespace Sys2Proof.Machine

/-- One pass of the Euclidean loop (R70). -/
theorem euclidGcd_loop (a b : Nat) : euclidGcd a b = if b = 0 then a else euclidGcd b (a % b) := by
  simp only [euclidGcd_eq]
  split
  case isTrue hb => rw [hb, Nat.gcd_zero_right]
  case isFalse => rw [Nat.gcd_comm a, Nat.gcd_rec, Nat.gcd_comm]

/-- The divisor is at most the greater operand, with a 0 among them or not (R70). -/
theorem gcd_le_max (a b : Nat) : Nat.gcd a b ≤ max a b := by
  obtain rfl | ha := Nat.eq_zero_or_pos a
  · simp
  · exact (Nat.gcd_le_left b ha).trans (le_max_left a b)

/-- A common divisor is at most the divisor, unless both operands are 0 (R70). -/
theorem le_gcd_of_dvd {a b d : Nat} (notBothZero : ¬ (a = 0 ∧ b = 0)) (ha : d ∣ a) (hb : d ∣ b) : d ≤ Nat.gcd a b :=
  Nat.le_of_dvd (Nat.pos_of_ne_zero (mt Nat.gcd_eq_zero_iff.mp notBothZero)) (Nat.dvd_gcd ha hb)

/-- Settles O8: the pass of the loop, and the rest by what the library says of its greatest common divisor. -/
theorem gcdIsGreatestCommonDivisor : Obligations.GcdIsGreatestCommonDivisor := by
  refine ⟨euclidGcd_loop, ?_⟩
  simp only [euclidGcd_eq]
  exact ⟨fun a b => ⟨Nat.gcd_dvd_left a b, Nat.gcd_dvd_right a b, fun _ => Nat.dvd_gcd⟩,
    fun _ _ notBothZero _ => le_gcd_of_dvd notBothZero, Nat.gcd_zero_right, Nat.gcd_zero_left, Nat.gcd_comm, gcd_le_max⟩

end Sys2Proof.Machine
end

section
/-! SUPPORT. The triple of `egcd` (41_gcd.md R72, R73): its special cases, its bounds, and how many nested calls reach it
(R77). -/

namespace Sys2Proof.Machine

/-- The parts of the triple, for a statement that names them. -/
theorem parts_of_egcd_eq {a b g : Nat} {x y : Int} (h : egcd a b = (g, x, y)) :
    g = Nat.gcd a b ∧ x = (egcd a b).2.1 ∧ y = (egcd a b).2.2 := by
  simp [← egcd_fst, h]

/-- The recursion ends one call on where the first operand divides the second (R73 item 2). -/
theorem egcd_of_dvd {a b : Nat} (ha : 0 < a) (h : a ∣ b) : egcd a b = (a, 1, 0) := by
  rw [egcd_pos ha, Nat.mod_eq_zero_of_dvd h, egcd_zero]
  simp

/-- A second operand of 0 is a multiple of the first (R73 item 2). -/
theorem egcd_zero_right {a : Nat} (ha : 0 < a) : egcd a 0 = (a, 1, 0) := egcd_of_dvd ha (dvd_zero a)

/-- Where the second operand is a proper divisor of the first, the first call exchanges them (R73 item 2). -/
theorem egcd_of_dvd_of_lt {a b : Nat} (hb : 0 < b) (hlt : b < a) (h : b ∣ a) : egcd a b = (b, 0, 1) := by
  rw [egcd_pos (hb.trans hlt), Nat.mod_eq_of_lt hlt, Nat.div_eq_of_lt hlt, egcd_of_dvd hb h]
  simp

/-- The bound on the second coefficient, where the first operand is not 0 (R73 item 3). -/
theorem egcd_snd_natAbs_le {a : Nat} (b : Nat) (ha : 0 < a) : (egcd a b).2.2.natAbs ≤ a / Nat.gcd a b := by
  obtain ⟨-, bound⟩ := egcd_natAbs_le a b
  rwa [max_eq_right (Nat.div_gcd_pos_of_pos_left b ha)] at bound

/-- The recursion cut off one call later is right, where the nested call cut off is (R72). -/
theorem egcdRec_succ_eq_egcd {k a b : Nat} (nested : 0 < a → egcdRec k (b % a) a = egcd (b % a) a) :
    egcdRec (k + 1) a b = egcd a b := by
  rw [egcdRec]
  split
  case isTrue ha => rw [ha, egcd_zero]
  case isFalse ha => rw [egcd_pos (Nat.pos_of_ne_zero ha), nested (Nat.pos_of_ne_zero ha)]

/-- Two nested calls leave less than half of the first operand (R77). -/
theorem two_mul_mod_lt {a r : Nat} (hr : 0 < r) (h : r < a) : 2 * (a % r) < a := by
  have remainder := Nat.mod_lt a hr
  have quotient : r ≤ r * (a / r) := Nat.le_mul_of_pos_right r (Nat.div_pos h.le hr)
  have division := Nat.div_add_mod a r
  omega

/-- Two nested calls for each bit of the first operand reach the base case (R77). -/
theorem egcdRec_eq_egcd {W k a b : Nat} (ha : a < 2 ^ W) (enough : 2 * W ≤ k) : egcdRec k a b = egcd a b := by
  induction W generalizing k a b with
  | zero =>
    obtain rfl : a = 0 := by simpa using ha
    exact egcdRec_bound (Nat.zero_le k) le_rfl
  | succ W ih =>
    obtain ⟨k, rfl⟩ : ∃ l, k = l + 2 := ⟨k - 2, by omega⟩
    refine egcdRec_succ_eq_egcd fun hpos => egcdRec_succ_eq_egcd fun hr => ih ?_ (by omega)
    have half := two_mul_mod_lt hr (Nat.mod_lt b hpos)
    rw [pow_succ] at ha
    omega

/-- Settles O9: the base case, the recursive step, and the Bézout equation. -/
theorem egcdFollowsItsRecursion : Obligations.EgcdFollowsItsRecursion := by
  refine ⟨egcd_zero, fun a b g x1 y1 ha nested => ?_, fun a b g x y h => ?_⟩
  · rw [egcd_pos ha, nested]
  · obtain ⟨rfl, rfl, rfl⟩ := parts_of_egcd_eq h
    exact ⟨egcd_bezout a b, (euclidGcd_eq a b).symm⟩

/-- Settles O10: the equation, the special cases and the bounds; the operands exchanged by running `egcd`. -/
theorem egcdProperties : Obligations.EgcdProperties := by
  refine ⟨fun a b g x y h => ?_, egcd_zero, fun _ => egcd_zero_right, fun _ _ => egcd_of_dvd,
    fun _ _ => egcd_of_dvd_of_lt, fun a b g x y h hpos => ?_, fun W a b g x y hW ha hb h => ?_, by decide, by decide⟩
  all_goals obtain ⟨rfl, rfl, rfl⟩ := parts_of_egcd_eq h
  · exact ⟨(euclidGcd_eq a b).symm, egcd_bezout a b⟩
  · exact ⟨(egcd_natAbs_le a b).1, egcd_snd_natAbs_le b hpos⟩
  · exact egcd_fits (by omega) ha hb

/-- Settles O11: two calls for each bit are already enough. -/
theorem egcdNestedCallsBounded : Obligations.EgcdNestedCallsBounded :=
  fun _ _ _ _ ha _ enough => egcdRec_eq_egcd ha (by omega)

end Sys2Proof.Machine
end

section
/-! SUPPORT. The range of the normalised coefficient of XGCDN (41_gcd.md R76): below the second operand, but for the two
degenerate cases. -/

namespace Sys2Proof.Machine

variable {a b : Nat} {x : Int}

/-- A coefficient that is not negative stays (R75). -/
theorem normalise_of_nonneg (h : 0 ≤ x) : normalise x b = x := if_pos h

/-- A negative coefficient gets one addition (R75). -/
theorem normalise_of_neg (h : x < 0) : normalise x b = x + b := if_neg h.not_ge

/-- The normalised coefficient is never negative (R76 item 1). -/
theorem normalise_egcd_nonneg (a b : Nat) : 0 ≤ normalise (egcd a b).2.1 b :=
  toNat_normalise_egcd a b ▸ Int.natCast_nonneg _

/-- The normalised coefficient fits where both operands fit (R76 item 1). -/
theorem normalise_egcd_fits {W : Nat} (hW : 0 < W) (ha : Fits W a) (hb : Fits W b) :
    Fits W (normalise (egcd a b).2.1 b).toNat :=
  (xgcdnResults_sound hW ha hb).res1

/-- The bound on the coefficient by the second operand alone (R76 item 1). -/
theorem egcd_coefficient_le (a b : Nat) : (egcd a b).2.1 ≤ (max 1 b : Nat) := by
  obtain ⟨bound, -⟩ := egcd_natAbs_le a b
  have := Nat.div_le_self b (Nat.gcd a b)
  omega

/-- The coefficient is not `b` for `b ≥ 2`: by the Bézout equation `b` would be the divisor, and the coefficient at most 1
(R76 item 2). -/
theorem egcd_coefficient_lt (hb : 2 ≤ b) : (egcd a b).2.1 < b := by
  have upper := egcd_coefficient_le a b
  suffices differs : (egcd a b).2.1 ≠ b by omega
  intro equal
  have divides : b ∣ Nat.gcd a b := by
    rw [← Int.natCast_dvd_natCast, ← egcd_bezout, equal]
    exact dvd_add (dvd_mul_left _ _) (dvd_mul_right _ _)
  have divisor : Nat.gcd a b = b := Nat.dvd_antisymm (Nat.gcd_dvd_right a b) divides
  obtain ⟨bound, -⟩ := egcd_natAbs_le a b
  rw [divisor, Nat.div_self (by omega), equal] at bound
  omega

/-- The normalised coefficient is below `b` for `b ≥ 2` (R76 item 2). -/
theorem normalise_egcd_lt (hb : 2 ≤ b) : normalise (egcd a b).2.1 b < b := by
  obtain neg | nonneg := lt_or_ge (egcd a b).2.1 0
  · rw [normalise_of_neg neg]
    omega
  · exact (normalise_of_nonneg nonneg).trans_lt (egcd_coefficient_lt hb)

/-- A negative coefficient comes of operands that are not 0 (R76 item 1). -/
theorem operands_pos_of_egcd_coefficient_neg (neg : (egcd a b).2.1 < 0) : 0 < a ∧ 1 ≤ b := by
  have lower := neg_le_egcd_coefficient a b
  refine ⟨Nat.pos_of_ne_zero ?_, by omega⟩
  rintro rfl
  simp at neg

/-- Modulo 1 the coefficient is 0, but for the first operand 1 (R76 item 3). -/
theorem egcd_coefficient_of_one (ha : a ≠ 1) : (egcd a 1).2.1 = 0 := by
  obtain rfl | hpos := Nat.eq_zero_or_pos a
  · rw [egcd_zero]
  · rw [egcd_of_dvd_of_lt one_pos (by omega) (one_dvd a)]

/-- Settles O12: the range of the coefficient, its degenerate cases by the special cases of `egcd`, and the inverse. -/
theorem xgcdnCoefficientRange : Obligations.XgcdnCoefficientRange := by
  intro a b g x y h
  obtain ⟨rfl, rfl, rfl⟩ := parts_of_egcd_eq h
  refine ⟨normalise_egcd_nonneg a b, fun W hW => normalise_egcd_fits (by omega),
    fun nonneg => ⟨normalise_of_nonneg nonneg, egcd_coefficient_le a b⟩, fun neg => ?_, normalise_egcd_lt, ?_, ?_, ?_, ?_,
    mul_toNat_normalise_egcd_mod⟩
  · obtain ⟨ha, hb⟩ := operands_pos_of_egcd_coefficient_neg neg
    refine ⟨ha, hb, neg_le_egcd_coefficient a b, ?_⟩
    rw [normalise_of_neg neg]
    omega
  · rintro rfl ha
    rw [egcd_coefficient_of_one ha]
    decide
  · rintro rfl ha
    rw [egcd_zero_right ha]
    rfl
  · rintro rfl rfl
    rfl
  · rintro rfl rfl
    rfl

end Sys2Proof.Machine
end

section
/-! SUPPORT. The commands GCD, XGCD and XGCDN (41_gcd.md R71, R74, R75): the states their issue and their completion
leave. -/

namespace Sys2Proof.Machine

/-- Settles O16: GCD raises no fault and asks for no modulus; the corner cases by the facts of the divisor. -/
theorem gcdIssuesAndCompletes : Obligations.GcdIssuesAndCompletes := by
  refine ⟨rfl, ?_, fun _ idle => exec_accepts idle rfl, fun _ busy => exec_busy .gcd busy nofun⟩
  simp only [euclidGcd_eq]
  exact ⟨rfl, Nat.gcd_zero_right, Nat.gcd_zero_left, Nat.gcd_self, Nat.gcd_comm, by decide⟩

/-- Settles O17: XGCD raises no fault, and its completion writes the triple of `egcd`, whose parts fit and meet the
equation. -/
theorem xgcdIssuesAndCompletes : Obligations.XgcdIssuesAndCompletes := by
  refine ⟨rfl, ⟨rfl, egcd_zero, fun _ => egcd_zero_right, fun _ ha => egcd_of_dvd ha dvd_rfl, by decide⟩,
    fun a b g x y h => ?_, fun _ idle => exec_accepts idle rfl, fun s g x y busy h => ?_⟩
  · obtain ⟨rfl, rfl, rfl⟩ := parts_of_egcd_eq h
    refine ⟨?_, egcd_not_both_neg a b, fun W hW ha hb => ⟨gcd_fits ha hb, egcd_fits (by omega) ha hb⟩⟩
    have recovered (x : Int) : signedValue (decide (x < 0)) x.natAbs = x := signedValue_signFlag_magnitude x
    rw [recovered, recovered]
    exact egcd_bezout a b
  · rw [exec_busy .xgcd busy nofun, resultsOf, xgcdResults_of_egcd h]
    rfl

/-- The equation after the one addition, with `y` not adjusted (R75). -/
theorem normalise_egcd_equation {a b : Nat} (neg : (egcd a b).2.1 < 0) :
    (a : Int) * normalise (egcd a b).2.1 b + b * (egcd a b).2.2 = Nat.gcd a b + a * b := by
  rw [normalise_of_neg neg]
  linear_combination egcd_bezout a b

/-- Settles O18: XGCDN raises no fault, and its completion writes the coefficient normalised once, which RES1 holds
exactly; the worked examples by running `egcd`. -/
theorem xgcdnIssuesAndCompletes : Obligations.XgcdnIssuesAndCompletes := by
  refine ⟨rfl, by decide, fun a b g x y h => ?_, fun _ idle => exec_accepts idle rfl, fun s g x y busy h => ?_⟩
  · obtain ⟨rfl, rfl, rfl⟩ := parts_of_egcd_eq h
    exact ⟨normalise_egcd_equation, normalise_egcd_nonneg a b, fun W hW => normalise_egcd_fits (by omega)⟩
  · refine ⟨(normalise x s.opb).toNat, ?_, ?_⟩
    · obtain ⟨-, rfl, -⟩ := parts_of_egcd_eq h
      exact toNat_normalise_egcd s.opa s.opb
    · rw [exec_busy .xgcdn busy nofun, resultsOf, xgcdnResults_of_egcd h]
      rfl

/-- Settles O23: what RES1 gets is the normalised coefficient, which is below OPB and the inverse. -/
theorem xgcdnYieldsTheInverse : Obligations.XgcdnYieldsTheInverse := by
  intro s busy coprime hb
  rw [euclidGcd_eq] at coprime
  refine ⟨_, exec_busy .xgcdn busy nofun, ?_, ?_, mul_toNat_normalise_egcd_mod coprime hb, rfl⟩
  · simpa [resultsOf, xgcdnResults] using coprime
  · exact (Int.toNat_lt' (by omega)).mpr (normalise_egcd_lt hb)

end Sys2Proof.Machine
end

section
/-! SUPPORT. `mod_pow` (42_modpow.md R80) as a function: its special values, and that only the base modulo the modulus
counts. -/

namespace Sys2Proof.Machine

variable {b e d m : Nat}

/-- The power is below the modulus (R80). -/
theorem modPow_lt (b e : Nat) (hm : 1 ≤ m) : modPow b e m < m := Nat.mod_lt _ hm

/-- Exponent 0 gives 1 where the modulus allows it, `0 ^ 0` included (R80). -/
theorem modPow_zero_exponent (b : Nat) (hm : 1 < m) : modPow b 0 m = 1 := Nat.mod_eq_of_lt hm

/-- Modulus 1 gives 0, for exponent 0 too (R80; 90_conflicts.md C3). -/
theorem modPow_one_modulus (b e : Nat) : modPow b e 1 = 0 := Nat.mod_one _

/-- Base 0 gives 0 but for exponent 0 (R80). -/
theorem modPow_zero_base (m : Nat) (he : 1 ≤ e) : modPow 0 e m = 0 := by
  rw [modPow, zero_pow (by omega), Nat.zero_mod]

/-- Exponent 1 is the remainder (R81). -/
theorem modPow_one_exponent (b m : Nat) : modPow b 1 m = b % m := by rw [modPow, pow_one]

/-- The modulus itself as the base gives 0 but for exponent 0 (R81). -/
theorem modPow_modulus_base (m : Nat) (he : 1 ≤ e) : modPow m e m = 0 :=
  Nat.mod_eq_zero_of_dvd (dvd_pow_self m (by omega))

/-- Bases congruent modulo the modulus have the same power (R80, R85). -/
theorem modPow_congr {b' : Nat} (h : b ≡ b' [MOD m]) : modPow b e m = modPow b' e m := h.pow e

/-- The base may be reduced first (R80, R85). -/
theorem modPow_mod_base (b e m : Nat) : modPow (b % m) e m = modPow b e m := modPow_congr (Nat.mod_modEq b m)

/-- The power of a power multiplies the exponents (R84). -/
theorem modPow_modPow (b e d m : Nat) : modPow (modPow b e m) d m = modPow b (e * d) m :=
  (modPow_mod_base (b ^ e) d m).trans (by rw [modPow, modPow, pow_mul])

/-- Settles O13: the special values, and the reduction of the base. -/
theorem modPowConsequences : Obligations.ModPowConsequences :=
  ⟨fun b e _ hm => ⟨rfl, modPow_lt b e hm⟩, fun b _ => modPow_zero_exponent b, modPow_one_modulus,
    fun _ m he _ => modPow_zero_base m he, fun b e m _ => (modPow_mod_base b e m).symm⟩

end Sys2Proof.Machine
end

section
/-! SUPPORT. Binary square-and-multiply (42_modpow.md R83): one pass keeps `r * b ^ e` modulo the modulus, and enough
passes bring the exponent to 0. -/

namespace Sys2Proof.Machine

/-- A power by half its exponent and the low bit of it (R83). -/
theorem pow_eq_square_pow_half (b e : Nat) : b ^ e = b ^ (e % 2) * (b * b) ^ (e / 2) := by
  rw [← pow_two, ← pow_mul, ← pow_add, Nat.mod_add_div]

/-- One pass keeps `r * b ^ e` modulo the modulus (R83). -/
theorem squareMultiply_pass_modEq (r b e m : Nat) :
    (if e % 2 = 1 then r * b % m else r) * (b * b % m) ^ (e / 2) ≡ r * b ^ e [MOD m] := by
  have multiplied : (if e % 2 = 1 then r * b % m else r) ≡ r * b ^ (e % 2) [MOD m] := by
    obtain even | odd := Nat.mod_two_eq_zero_or_one e
    · simp [even, Nat.ModEq.refl]
    · simpa [odd] using Nat.mod_modEq (r * b) m
  calc (if e % 2 = 1 then r * b % m else r) * (b * b % m) ^ (e / 2)
      ≡ r * b ^ (e % 2) * (b * b) ^ (e / 2) [MOD m] := multiplied.mul ((Nat.mod_modEq (b * b) m).pow _)
    _ = r * b ^ e := by rw [mul_assoc, ← pow_eq_square_pow_half]

/-- With passes enough for the bits of the exponent, the loop gives `r * b ^ e` modulo the modulus (R83). -/
theorem squareMultiplyLoop_eq {k r b e m : Nat} (reduced : r < m) (enough : e < 2 ^ k) :
    squareMultiplyLoop k r b e m = r * b ^ e % m := by
  induction k generalizing r b e with
  | zero =>
    obtain rfl : e = 0 := by simpa using enough
    simp [squareMultiplyLoop, Nat.mod_eq_of_lt reduced]
  | succ k ih =>
    rw [squareMultiplyLoop]
    split
    · next done => simp [done, Nat.mod_eq_of_lt reduced]
    · have reduced' : (if e % 2 = 1 then r * b % m else r) < m := by
        split
        · exact Nat.mod_lt _ (by omega)
        · exact reduced
      rw [ih reduced' (by omega)]
      exact squareMultiply_pass_modEq r b e m

/-- Settles O14: the loop starts at `1 mod m` and the reduced base. -/
theorem squareMultiplyComputesModPow : Obligations.SquareMultiplyComputesModPow := by
  intro W base exponent modulus hm enough
  rw [squareMultiply, squareMultiplyLoop_eq (Nat.mod_lt 1 hm) enough]
  calc 1 % modulus * (base % modulus) ^ exponent
      ≡ 1 * base ^ exponent [MOD modulus] := (Nat.mod_modEq 1 _).mul ((Nat.mod_modEq base _).pow _)
    _ = base ^ exponent := one_mul _

end Sys2Proof.Machine
end

section
/-! SUPPORT. The command MODPOW (42_modpow.md R81, R82, R85): its faults, the states its issue and its completion leave,
and an issue followed by its completion. -/

namespace Sys2Proof.Machine

variable {s : State} {i : Instr}

/-- The state a faulted issue leaves of an idle block (30_encoding.md R54; 60_exceptions.md R88). -/
theorem exec_faults {f : Cause} (idle : s.status.busy = false) (fault : causeOf i s = some f) :
    exec i s = .next { s with
      res0 := 0, res1 := 0, res2 := 0
      status := { busy := false, done := false, err := true, busyErr := false, xNeg := false, yNeg := false,
                  ecode := causeCode f } } := by
  rw [exec_idle i idle, fault]
  exact congrArg _ (State.faultEntry_idle idle f)

/-- A modulus of 0 is the first fault, whatever STRICT and the base (R82). -/
theorem modpowCause_zero (strict : Bool) (base : Nat) : modpowCause strict base 0 = some .arithmeticError := rfl

/-- A base not below the modulus is the second fault, in strict mode (R82). -/
theorem modpowCause_oversized {base modulus : Nat} (hm : modulus ≠ 0) (oversized : modulus ≤ base) :
    modpowCause true base modulus = some .invalidInput := by
  simp [modpowCause, hm, oversized]

/-- MODPOW is accepted with a modulus and, in strict mode, a base below it (R82). -/
theorem causeOf_modpow_eq_none (modulus : s.opc ≠ 0) (strict : s.ctrl.strict = true → s.opa < s.opc) :
    causeOf .modpow s = none := modpowCause_eq_none.mpr ⟨modulus, strict⟩

/-- MODPOW without a modulus raises ArithmeticError (R82 item 1). -/
theorem causeOf_modpow_zero (zero : s.opc = 0) : causeOf .modpow s = some .arithmeticError := by
  rw [causeOf, zero, modpowCause_zero]

/-- MODPOW in strict mode with a modulus its base is not below raises InvalidInput (R82 item 2). -/
theorem causeOf_modpow_oversized (modulus : s.opc ≠ 0) (strict : s.ctrl.strict = true) (oversized : s.opc ≤ s.opa) :
    causeOf .modpow s = some .invalidInput := by
  rw [causeOf, strict, modpowCause_oversized modulus oversized]

/-- Settles O20: the two faults by the test each fails, the two accepts by passing both. -/
theorem modpowFaultsInOrder : Obligations.ModpowFaultsInOrder := fun _ idle =>
  ⟨fun zero => exec_faults idle (causeOf_modpow_zero zero),
    fun hm strict oversized => exec_faults idle (causeOf_modpow_oversized (by omega) strict oversized),
    fun hm _ below => exec_accepts idle (causeOf_modpow_eq_none (by omega) fun _ => below),
    fun hm lax => exec_accepts idle (causeOf_modpow_eq_none (by omega) (by simp [lax]))⟩

/-- Settles O19: accepted or faulted by R82, completed with the power; the corner cases by the values of `mod_pow`. -/
theorem modpowIssuesAndCompletes : Obligations.ModpowIssuesAndCompletes := by
  refine ⟨rfl, ⟨fun a _ => modPow_zero_exponent a, modPow_one_modulus, fun _ m he _ => modPow_zero_base m he,
    modPow_one_exponent, fun W hW => ?_, by decide⟩,
    fun s idle modulus strict => exec_accepts idle (causeOf_modpow_eq_none modulus strict), ?_,
    fun s busy modulus => exec_busy .modpow busy fun _ => modulus⟩
  · have large : 1 < 2 ^ W := Nat.one_lt_two_pow (by omega)
    exact modPow_modulus_base _ (by omega)
  · intro s idle fault
    by_cases zero : s.opc = 0
    · exact ⟨_, exec_faults idle (causeOf_modpow_zero zero), rfl, rfl, (if_pos zero).symm⟩
    · obtain ⟨strict, oversized⟩ := fault.resolve_left zero
      exact ⟨_, exec_faults idle (causeOf_modpow_oversized zero strict oversized), rfl, rfl, (if_neg zero).symm⟩

/-- The issue of a command that raises no fault, then its completion (30_encoding.md R55, R56). -/
theorem exec_issue_then_completion (idle : s.status.busy = false) (noFault : causeOf i s = none) :
    ∃ t, exec i s = .next t ∧ exec i t = .next (s.afterCommand i) := by
  have accepted : exec i s = .next (s.clearForIssue.accept (opcodeOf i)) := by rw [exec_idle i idle, noFault]; rfl
  have modulus : i = .modpow → s.opc ≠ 0 := by
    rintro rfl
    exact (modpowCause_eq_none.mp noFault).1
  refine ⟨_, accepted, (exec_busy (s := s.clearForIssue.accept (opcodeOf i)) i rfl modulus).trans ?_⟩
  cases i <;> rfl

/-- Settles O21: with STRICT 0 both bases are accepted, and both are congruent to the reduced one. -/
theorem oversizedBaseIsReduced : Obligations.OversizedBaseIsReduced := by
  intro s k idle lax hm _
  have noFault (u : State) (ctrl : u.ctrl = s.ctrl) (opc : u.opc = s.opc) : causeOf .modpow u = none :=
    causeOf_modpow_eq_none (by omega) (by simp [ctrl, lax])
  obtain ⟨t, issued, completed⟩ := exec_issue_then_completion idle (noFault s rfl rfl)
  obtain ⟨t', issued', completed'⟩ :=
    exec_issue_then_completion (s := { s with opa := s.opa + k * s.opc }) idle (noFault _ rfl rfl)
  refine ⟨t, _, t', _, issued, completed, rfl, (modPow_mod_base s.opa s.opb s.opc).symm, issued', completed', ?_⟩
  exact modPow_congr (Nat.add_mul_modulus_modEq_iff.mpr .rfl)

end Sys2Proof.Machine
end

section
/-! SUPPORT. The round trip of a valid key pair (42_modpow.md R84, R85): an exponent that is 1 modulo `(p-1)(q-1)` gives
the base back modulo `p*q`, and MODPOW twice computes that power. -/

namespace Sys2Proof.Machine

variable {p q k m : Nat}

/-- Modulo a prime `p`, an exponent other than 0 that is 1 modulo `p - 1` gives the base back: by Fermat's little
theorem, and at a multiple of `p` because 0 stays 0. -/
theorem pow_modEq_self_of_prime (hp : Nat.Prime p) (hk : k ≡ 1 [MOD p - 1]) (pos : k ≠ 0) (m : Nat) :
    m ^ k ≡ m [MOD p] := by
  have : Fact (Nat.Prime p) := ⟨hp⟩
  rw [← ZMod.natCast_eq_natCast_iff, Nat.cast_pow]
  by_cases zero : (m : ZMod p) = 0
  · rw [zero, zero_pow pos]
  · rw [pow_eq_pow_of_modEq hk (ZMod.pow_card_sub_one_eq_one zero), pow_one]

/-- Two different primes are not both 2, so 0 is not 1 modulo `(p-1)(q-1)` and the exponent is not 0. -/
theorem exponent_ne_zero (hp : Nat.Prime p) (hq : Nat.Prime q) (differ : p ≠ q)
    (hk : k ≡ 1 [MOD (p - 1) * (q - 1)]) : k ≠ 0 := by
  rintro rfl
  have unit : (p - 1) * (q - 1) = 1 := Nat.dvd_one.mp (Nat.modEq_zero_iff_dvd.mp hk.symm)
  obtain ⟨hp1, hq1⟩ := mul_eq_one.mp unit
  have := hp.two_le
  have := hq.two_le
  omega

/-- An exponent that is 1 modulo `(p-1)(q-1)` gives the base back modulo `p*q` (R84). -/
theorem modPow_key_pair (hp : Nat.Prime p) (hq : Nat.Prime q) (differ : p ≠ q)
    (hk : k ≡ 1 [MOD (p - 1) * (q - 1)]) (m : Nat) : modPow m k (p * q) = m % (p * q) := by
  have pos := exponent_ne_zero hp hq differ hk
  have modP := pow_modEq_self_of_prime hp (hk.of_mul_right _) pos m
  have modQ := pow_modEq_self_of_prime hq (hk.of_mul_left _) pos m
  exact (Nat.modEq_and_modEq_iff_modEq_mul ((Nat.coprime_primes hp hq).mpr differ)).mp ⟨modP, modQ⟩

/-- Settles O49: both issues are accepted, the second because the first result is below the modulus, and the two powers
are one with exponent `e * d`. -/
theorem decryptRecoversTheMessage : Obligations.DecryptRecoversTheMessage := by
  intro s p q e d m hp hq differ keys strict idle
  have modulus : p * q ≠ 0 := Nat.mul_ne_zero hp.ne_zero hq.ne_zero
  obtain ⟨s1, issued, completed⟩ :=
    exec_issue_then_completion (i := .modpow) (s := { s with opa := m, opb := e, opc := p * q }) idle
      (causeOf_modpow_eq_none modulus strict)
  obtain ⟨s3, issued', completed'⟩ :=
    exec_issue_then_completion (i := .modpow)
      (s := { State.afterCommand .modpow { s with opa := m, opb := e, opc := p * q } with
        opa := modPow m e (p * q), opb := d }) rfl
      (causeOf_modpow_eq_none modulus fun _ => modPow_lt m e (Nat.pos_of_ne_zero modulus))
  have recovered : modPow (modPow m e (p * q)) d (p * q) = m % (p * q) :=
    (modPow_modPow m e d (p * q)).trans (modPow_key_pair hp hq differ keys m)
  exact ⟨s1, _, s3, _, issued, completed, issued', completed', recovered,
    fun below => recovered.trans (Nat.mod_eq_of_lt below)⟩

end Sys2Proof.Machine
end

section
/-! SUPPORT. Fault entry (60_exceptions.md R87, R88): an issue that leaves the block idle is a fault entry, and the
STATUS value of each code. -/

namespace Sys2Proof.Machine

variable {s t : State}

/-- What an issue can leave of an idle block (30_encoding.md R54, R55): a fault entry, or a command in flight. -/
theorem issueWord_next_cases {c : Byte} (idle : s.status.busy = false) (issued : issueWord c s = .next t) :
    (∃ f, t = s.faultEntry f) ∨ ∃ i, t = s.clearForIssue.accept (opcodeOf i) := by
  cases word : decode c with
  | error r =>
    simp only [issueWord, word] at issued
    cases issued
    exact .inl ⟨.illegalCommand, rfl⟩
  | ok i =>
    rw [issueWord_command word, exec_idle i idle] at issued
    cases issued
    cases causeOf i s with
    | some f => exact .inl ⟨f, rfl⟩
    | none => exact .inr ⟨i, rfl⟩

/-- An issue after which BUSY is 0 has faulted: an accept sets BUSY (R55). -/
theorem faultEntry_of_issueWord {c : Byte} (idle : s.status.busy = false) (issued : issueWord c s = .next t)
    (notBusy : t.status.busy = false) : ∃ f, t = s.faultEntry f := by
  refine (issueWord_next_cases idle issued).resolve_right ?_
  rintro ⟨i, rfl⟩
  cases notBusy

/-- The code of each fault, with the value of STATUS in which ERR and that code are all that is set (R87, R88). -/
theorem causeCode_statusWord (f : Cause) :
    let word := statusWord { Status.zero with err := true, ecode := causeCode f }
    causeCode f = 1#2 ∧ word = 0x44#8 ∨ causeCode f = 2#2 ∧ word = 0x84#8 ∨ causeCode f = 3#2 ∧ word = 0xC4#8 := by
  cases f <;> decide

/-- Settles O34: the step is the issue of the word written, which has faulted; an idle block's PEND is 0 by the
invariant. -/
theorem faultEntryLeavesThisState : Obligations.FaultEntryLeavesThisState := by
  intro s t v rest inv idle ht taken notBusy
  rw [step_issue inv.legal ht (inv.fits ht) idle] at taken
  obtain ⟨f, rfl⟩ := faultEntry_of_issueWord (s := s.withTurns rest) idle taken notBusy
  rw [State.faultEntry_idle (s := s.withTurns rest) idle f]
  refine ⟨?_, causeCode_statusWord f⟩
  rw [← inv.idle idle]
  rfl

end Sys2Proof.Machine
end

section
/-! SUPPORT. Reset (70_reset_and_hazards.md R105, R107): the state it leaves in one step, and that what it shows stays
until the host writes to CMD. -/

namespace Sys2Proof.Machine

variable {s s' : State} {rest : List Turn}

/-- The reset at the head of the list, as a step (R105). -/
theorem step_reset (legal : s.cfg.wf = true) (ht : s.turns = .reset :: rest) :
    step s = .next (s.withTurns rest).resetStep :=
  step_cons legal ht

/-- Settles O35: the reset step, which ends with the state R30 gives. -/
theorem resetClearsEveryRegister : Obligations.ResetClearsEveryRegister :=
  fun _ _ legal ht => step_reset legal ht

theorem SameOutput.trans {u : State} (h : SameOutput s s') (h' : SameOutput s' u) : SameOutput s u where
  status := h.status.trans h'.status
  res0 := h.res0.trans h'.res0
  res1 := h.res1.trans h'.res1
  res2 := h.res2.trans h'.res2
  pend := h.pend.trans h'.pend

/-- No host write to CMD is among the turns to come; resets may be. -/
def NoIssue (s : State) : Prop := ∀ t ∈ s.turns, t.writesCmd = false

theorem NoIssue.step (quiet : NoIssue s) (taken : step s = .next s') : NoIssue s' :=
  fun t ht => quiet t (List.mem_of_mem_tail (step_turns taken ▸ ht))

/-- STATUS, the results and PEND as reset leaves them stay so in every step that is no issue: nothing is in flight to
complete (R107). -/
theorem SameOutput.reset_step (out : SameOutput s State.reset) (quiet : NoIssue s) (taken : step s = .next s') :
    SameOutput s' State.reset := by
  have idle : s.status.busy = false := congrArg Status.busy out.status
  cases step_outputMove taken with
  | kept out' => exact out'.trans out
  | reset _ out' => exact out'.trans ⟨rfl, rfl, rfl, rfl, rfl⟩
  | faulted now | accepted now =>
    obtain ⟨v, rest, ht, -⟩ := now
    exact absurd (quiet (.hostWrite 2 v) (by simp [ht])) nofun
  | dropped now | completed now =>
    obtain ⟨busy, -⟩ := now
    simp [idle] at busy

/-- They stay so in any number of such steps. -/
theorem BlockInv.runSteps_sameOutput_reset (k : Nat) (h : BlockInv s) (out : SameOutput s State.reset)
    (quiet : NoIssue s) : ∃ t, runSteps k s = .next t ∧ SameOutput t State.reset := by
  induction k generalizing s with
  | zero => exact ⟨s, rfl, out⟩
  | succ k ih =>
    obtain ⟨s', taken⟩ := invariantStatesNeverStop s h
    rw [runSteps_succ taken]
    exact ih (h.step taken) (out.reset_step quiet taken) (quiet.step taken)

/-- Settles O37: the reset step puts what the block shows at its reset values, and the later steps keep it there. -/
theorem resetAbandonsTheCommand : Obligations.ResetAbandonsTheCommand := by
  intro s ts k h ht quiet
  have taken := step_reset h.legal ht
  obtain ⟨t, run, out⟩ := (h.step taken).runSteps_sameOutput_reset k ⟨rfl, rfl, rfl, rfl, rfl⟩ quiet
  exact ⟨t, (runSteps_succ taken).trans run, congrArg Status.busy out.status, congrArg Status.done out.status,
    out.pend, out.res0, out.res1, out.res2⟩

end Sys2Proof.Machine
end

section
/-! SUPPORT. Which turn writes an operand register or CTRL, and what an issue does to the results
(70_reset_and_hazards.md R113). -/

namespace Sys2Proof.Machine

variable {s s' : State} {t : Turn}

/-- No turn touches the configuration (00_scope.md R13). -/
theorem Move.cfg_eq (m : Move t s s') : s'.cfg = s.cfg := by
  cases m with
  | issued i => cases causeOf i s <;> rfl
  | reset | read | ignored | dropped | storeOpa | storeOpb | storeOpc | storeCtrl | illegal | completed | noStep => rfl

/-- Every issue clears the results, accepted or faulted (30_encoding.md R54). -/
theorem Move.results_of_issue (m : Move t s s') (cmd : t.writesCmd = true) (idle : s.status.busy = false) :
    s'.res0 = 0 ∧ s'.res1 = 0 ∧ s'.res2 = 0 := by
  cases m with
  | illegal => exact ⟨rfl, rfl, rfl⟩
  | issued i => cases causeOf i s <;> exact ⟨rfl, rfl, rfl⟩
  | ignored i v _ unguarded =>
    have index : i.val = 2 := of_decide_eq_true cmd
    simp [index] at unguarded
  | dropped i v _ _ busy => simp [idle] at busy
  | reset | read | storeOpa | storeOpb | storeOpc | storeCtrl | completed | noStep => cases cmd

/-- Other than reset, only a host write to an operand register or CTRL while idle changes it (R113). -/
theorem Move.write_of_operand_change (m : Move t s s') (noReset : t ≠ .reset) :
    (s'.opa ≠ s.opa → s.status.busy = false ∧ t = .hostWrite 4 s'.opa) ∧
    (s'.opb ≠ s.opb → s.status.busy = false ∧ t = .hostWrite 5 s'.opb) ∧
    (s'.opc ≠ s.opc → s.status.busy = false ∧ t = .hostWrite 6 s'.opc) ∧
    (s'.ctrl ≠ s.ctrl → s.status.busy = false ∧ ∃ v, t = .hostWrite 0 v) := by
  cases m with
  | reset => exact absurd rfl noReset
  | read | ignored | dropped | illegal | completed | noStep => exact ⟨absurd rfl, absurd rfl, absurd rfl, absurd rfl⟩
  | issued i => cases causeOf i s <;> exact ⟨absurd rfl, absurd rfl, absurd rfl, absurd rfl⟩
  | storeOpa v _ _ idle => exact ⟨fun _ => ⟨idle, rfl⟩, absurd rfl, absurd rfl, absurd rfl⟩
  | storeOpb v _ _ idle => exact ⟨absurd rfl, fun _ => ⟨idle, rfl⟩, absurd rfl, absurd rfl⟩
  | storeOpc v _ _ idle => exact ⟨absurd rfl, absurd rfl, fun _ => ⟨idle, rfl⟩, absurd rfl⟩
  | storeCtrl v _ idle => exact ⟨absurd rfl, absurd rfl, absurd rfl, fun _ => ⟨idle, v, rfl⟩⟩

/-- Settles O42: turn by turn, for the turn at the head of the list. -/
theorem operandsChangeOnlyByHostWriteOrReset : Obligations.OperandsChangeOnlyByHostWriteOrReset := by
  intro s s' taken
  obtain ⟨legal, t, rest, ht, m⟩ := step_moves taken
  have head {u : Turn} (now : t = u) (host : u ≠ .engine) : ∃ rest, s.turns = u :: rest :=
    ⟨rest, now ▸ ht.resolve_right fun ⟨_, engine, _⟩ => host (now.symm.trans engine)⟩
  refine ⟨m.cfg_eq, fun idle ⟨v, rest', issue⟩ => ?_, ?_⟩
  · have m' : Move (.hostWrite 2 v) (s.withTurns rest') s' :=
      takeTurn_moves ((step_cons legal issue).symm.trans taken)
    exact m'.results_of_issue rfl idle
  · by_cases reset : t = .reset
    · exact .inl (head reset nofun)
    · obtain ⟨opa, opb, opc, ctrl⟩ := m.write_of_operand_change reset
      exact .inr ⟨fun changed => (opa changed).imp_right (head · nofun),
        fun changed => (opb changed).imp_right (head · nofun),
        fun changed => (opc changed).imp_right (head · nofun),
        fun changed => (ctrl changed).imp_right fun ⟨v, now⟩ => ⟨v, head now nofun⟩⟩

end Sys2Proof.Machine
end

section
/-! SUPPORT. The end of a run (00_scope.md R14, 70_reset_and_hazards.md R114, R117): the turns are used up, the engine
completes what is in flight, and then nothing moves. -/

namespace Sys2Proof.Machine

variable {s s' : State}

/-- A run has ended exactly when no turn is to come and the block is idle (00_scope.md R14). -/
theorem State.ended_iff : s.ended = true ↔ s.turns = [] ∧ s.status.busy = false := by
  simp [State.ended]

/-- After the engine's turn the block is idle (30_encoding.md R56). -/
theorem Move.idle_of_engine (m : Move .engine s s') : s'.status.busy = false := by
  cases m with
  | completed => rfl
  | noStep _ idle => exact idle

/-- A run that has ended moves no more, in any number of steps. -/
theorem runSteps_of_ended (k : Nat) (legal : s.cfg.wf = true) (ended : s.ended = true) : runSteps k s = .next s := by
  obtain ⟨ht, idle⟩ := State.ended_iff.mp ended
  have stays : step s = .next s := (step_nil legal ht).trans (engineTurn_idle idle)
  induction k with
  | zero => rfl
  | succ k ih => rw [runSteps_succ stays, ih]

/-- As many steps as the host has turns use them up, and keep the invariant. -/
theorem BlockInv.runSteps_turns (h : BlockInv s) :
    ∃ t, runSteps s.turns.length s = .next t ∧ BlockInv t ∧ t.turns = [] := by
  induction ht : s.turns generalizing s with
  | nil => exact ⟨s, rfl, h, ht⟩
  | cons u rest ih =>
    obtain ⟨s', taken⟩ := invariantStatesNeverStop s h
    have ht' : s'.turns = rest := by rw [step_turns taken, ht, List.tail_cons]
    rw [List.length_cons, runSteps_succ taken]
    exact ih (h.step taken) ht'

/-- With no turn to come, one step ends the run: the engine completes what is in flight (R114). -/
theorem BlockInv.step_ends (h : BlockInv s) (ht : s.turns = []) : ∃ t, Machine.step s = .next t ∧ t.ended = true := by
  obtain ⟨t, moved⟩ := h.engineTurn_answers
  have m := engineTurn_moves moved
  exact ⟨t, (step_nil h.legal ht).trans moved, State.ended_iff.mpr ⟨m.turns_eq.trans ht, m.idle_of_engine⟩⟩

/-- Settles O46: the turns are used up, one step more ends the run, and the rest change nothing. -/
theorem everyRunEndsIdle : Obligations.EveryRunEndsIdle := by
  intro s h
  obtain ⟨u, run, hu, hostDone⟩ := h.runSteps_turns
  obtain ⟨t, last, ended⟩ := hu.step_ends hostDone
  refine ⟨t, ended, fun k => ?_⟩
  rw [runSteps_add k ((runSteps_last run).trans last), runSteps_of_ended k (hu.step last).legal ended]

end Sys2Proof.Machine
end

section
/-! SUPPORT. A command's issue and the engine's turn after it (70_reset_and_hazards.md R112). -/

namespace Sys2Proof.Machine

variable {s : State} {rest : List Turn}

/-- With a command in flight, the engine's turn commits the results of some command (30_encoding.md R56). -/
theorem BlockInv.step_commits (h : BlockInv s) (busy : s.status.busy = true) (ht : s.turns = .engine :: rest) :
    ∃ i, Machine.step s = .next ((s.withTurns rest).commit (resultsOf i s)) := by
  obtain ⟨i, pending, modulus⟩ := h.inFlight_completes busy
  exact ⟨i, step_completes h.legal ht busy pending modulus⟩

/-- Settles O50: after a fault, which sets ERR, the engine's turn passes; after an accept, which clears ERR, it commits
and sets DONE. -/
theorem exactlyOneOfErrAndDone : Obligations.ExactlyOneOfErrAndDone := by
  intro s v rest h idle ht
  obtain ⟨t, issue⟩ := invariantStatesNeverStop s h
  have ht' : t.turns = .engine :: rest := by rw [step_turns issue, ht, List.tail_cons]
  have h' := h.step issue
  rw [runSteps_succ issue]
  rw [step_issue h.legal ht (h.fits ht) idle] at issue
  obtain ⟨f, rfl⟩ | ⟨i, rfl⟩ := issueWord_next_cases (s := s.withTurns (.engine :: rest)) idle issue
  · have passes := (step_engine h'.legal ht').trans (engineTurn_idle idle)
    exact ⟨_, runSteps_succ passes, idle, rfl, .inl ⟨rfl, rfl⟩⟩
  · obtain ⟨j, commits⟩ := h'.step_commits rfl ht'
    exact ⟨_, runSteps_succ commits, rfl, rfl, .inr ⟨rfl, rfl⟩⟩

end Sys2Proof.Machine
end
